-- ==== Sys2Proof/Word.lean ====
section
/-! DEFINITION. The words of the Arbilo TC-16 and their plainest arithmetic. -/

namespace Sys2Proof

/-- One byte of a record. -/
abbrev Byte := BitVec 8

/-- A line word, mask or level set: L0 in bit 0, L15 in bit 15 (scope 3.2). -/
abbrev LineWord := BitVec 16

/-- A value of the 48-bit microsecond counter (R144). -/
abbrev Timestamp := BitVec 48

/-- A moment of the run, which does not wrap (R70 compares moments). It is held in whole microseconds,
so two moments within one microsecond (R6) are the same here: DESIGN CHOICE, unsafe (log entry 33). -/
abbrev Moment := Nat

/-- A count that stops at 65535 (R81, R96, R134). -/
def sat16 (n : Nat) : Nat := min n 65535

end Sys2Proof
end

