-- ==== Sys2Proof/Syntax.lean ====
section
/-! DEFINITION. The commands of the controller: one constructor of `Instr` for each row of
spec/opcode_table.json, with the operands the row's rule needs. -/

namespace Sys2Proof

/-- How wide an access to the register window is (R156: only 32 bits are taken). -/
inductive AccessWidth where
  | bits8
  | bits16
  | bits32
  | bits64
  deriving DecidableEq, Repr

/-- The steps of spec/opcode_table.json. Where R6 makes one line event of changes at one moment,
`sameMoment` says that this change comes at the moment of the line change taken just before it
(log entry 4). `tag` names the bus-master read that is answered (log entry 7). -/
inductive Instr where
  /-- RAW_LEVEL_CHANGE (R1). -/
  | rawLevelChange (line : Fin 16) (level : Bool) (sameMoment : Bool)
  /-- QUALIFICATION_TIMER_EXPIRY (R4). -/
  | qualificationTimerExpiry (line : Fin 16) (sameMoment : Bool)
  /-- LINE_EVENT_TAKEN (R8). -/
  | lineEventTaken (slot : Fin 32)
  /-- HOLD_EXPIRY (R23). -/
  | holdExpiry (slot : Fin 32)
  /-- ARM_EXPIRY (R25, R26). -/
  | armExpiry (slot : Fin 32)
  /-- DELAY_EXPIRY (R49). -/
  | delayExpiry (slot : Fin 32)
  /-- GATE_OPENING (R46). -/
  | gateOpening (slot : Fin 32)
  /-- GATE_LOSS (R47). -/
  | gateLoss (slot : Fin 32)
  /-- FIRED_RECORD_TAKEN (R35). -/
  | firedRecordTaken (slot : Fin 32)
  /-- FIRING_COMPLETION (R54). -/
  | firingCompletion (slot : Fin 32)
  /-- ORDER_DONE_TAKEN (R58). -/
  | orderDoneTaken (slot : Fin 32)
  /-- INTERVAL_TIMER_EXPIRY (R64). -/
  | intervalTimerExpiry (slot : Fin 32)
  /-- GRANT (R72). -/
  | grant
  /-- ENTRY_SETTLED (R77). -/
  | entrySettled
  /-- CONVERSION_DONE (R78): the voltage at the selected input, in nanovolts (log entry 13). -/
  | conversionDone (nanovolts : Int)
  /-- POOL_READ_ISSUE (R89). -/
  | poolReadIssue
  /-- POOL_READ_DATA (R90): the 16 bytes, byte 0 least significant. -/
  | poolReadData (tag : Nat) (data : BitVec 128)
  /-- RESULT_TAKEN (R94). -/
  | resultTaken
  /-- PAGE_CLOSE_REQUEST (R101). -/
  | pageCloseRequest (slot : Fin 32)
  /-- FLUSH_EXPIRY (R102). -/
  | flushExpiry (slot : Fin 32)
  /-- PAGE_CLOSE (R98). -/
  | pageClose (slot : Fin 32)
  /-- UNUSED_RETURN (R106). -/
  | unusedReturn
  /-- NOTICE_TAKEN (R135). -/
  | noticeTaken
  /-- RECORD_WRITE (R132). -/
  | recordWrite
  /-- MODERATION_TIMER_EXPIRY (R138). -/
  | moderationTimerExpiry
  /-- ORDER_READ_ISSUE (R111). -/
  | orderReadIssue
  /-- ORDER_READ_DATA (R111): the 64 bytes, byte 0 least significant. -/
  | orderReadData (tag : Nat) (data : BitVec 512)
  /-- ARM (R118): the held order is taken. -/
  | arm
  /-- SAMPLE (R118): the held order is taken. -/
  | sample
  /-- CANCEL (R119): the held order is taken. -/
  | cancel
  /-- LINES (R120): the held order is taken. -/
  | lines
  /-- FENCE (R121): the held order is taken. -/
  | fence
  /-- BAD_ORDER (R117): the held order is taken. -/
  | badOrder
  /-- FENCE_LIMIT_EXPIRY (R121). -/
  | fenceLimitExpiry
  /-- FENCE_DONE_TAKEN (R121). -/
  | fenceDoneTaken
  /-- RUN_WRITTEN_1 (R145, R157): CONTROL with RUN 1 and RESET 0. -/
  | runWritten1
  /-- RUN_WRITTEN_0 (R149, R153, R157): CONTROL with RUN 0 and RESET 0. `lossFirst` names the
  followers that take the loss of their gate before the halt (R60, R48; log entry 5). -/
  | runWritten0 (lossFirst : BitVec 32)
  /-- HOST_RESET (R154): CONTROL with RESET 1. -/
  | hostReset
  /-- EVENTS_WRITE (R140). -/
  | eventsWrite (width : AccessWidth) (value : BitVec 32)
  /-- EVENT_MASK_WRITE (R141). -/
  | eventMaskWrite (width : AccessWidth) (value : BitVec 32)
  /-- ORDER_TAIL_WRITE (R112, R158). -/
  | orderTailWrite (value : BitVec 32)
  /-- POOL_TAIL_WRITE (R158). -/
  | poolTailWrite (value : BitVec 32)
  /-- DONE_HEAD_WRITE (R130, R158). -/
  | doneHeadWrite (value : BitVec 32)
  /-- REGISTER_WRITE (R156): any other write of the window's 64 bytes. -/
  | registerWrite (offset : BitVec 6) (width : AccessWidth) (value : BitVec 32)
  /-- SETUP_READ_DATA (R146): the 128 bytes, byte 0 least significant. -/
  | setupReadData (tag : Nat) (data : BitVec 1024)
  /-- SETUP_READ_ERROR (R146). -/
  | setupReadError (tag : Nat)
  /-- STOP_COMPLETE (R150). -/
  | stopComplete
  /-- FETCH_ERROR (R111). -/
  | fetchError (tag : Nat)
  /-- POOL_ERROR (R89). -/
  | poolError (tag : Nat)
  /-- PAGE_ERROR (R107). -/
  | pageError
  /-- POST_ERROR (R132). -/
  | postError
  /-- COMPLETION_TIMEOUT (R151). -/
  | completionTimeout (tag : Nat)
  /-- LINK_DOWN (R151). -/
  | linkDown
  /-- POWER_ON_RESET (R155). -/
  | powerOnReset
  /-- LINK_RESET (R155). -/
  | linkReset
  /-- CONFIGURATION_SPACE_WRITE (R151): the enables after the write. -/
  | configurationSpaceWrite (busMaster : Bool) (msi : Bool)
  deriving DecidableEq, Repr

end Sys2Proof
end

