-- ==== Sys2Proof/Config.lean ====
section
/-! DEFINITION. What the controller fixes for good: capacities, times of the link and the
converter, and the identification word. No rule of the spec leaves the value of a result open, so
there is no free value here. -/

namespace Sys2Proof.Config

/-- The Post Queue never holds more than 24 records (R131). -/
def postQueueSize : Nat := 24

/-- The Staging Buffer never holds more than 4 scan results (R83). -/
def stagingSize : Nat := 4

/-- The Buffer Cache never holds more than 8 descriptors (R91). -/
def cacheSize : Nat := 8

/-- Completion timeout of a bus-master read: 50 ms, in microseconds (R89, R111, R146). -/
def readTimeout : Nat := 50000

/-- One conversion takes 2 microseconds (R77). -/
def conversionTime : Nat := 2

/-- Microseconds in a millisecond (scope 3.1; R24, R102, R121). -/
def perMilli : Nat := 1000

/-- The constant contents of IDENT (R156, R159). -/
def ident : BitVec 32 := 0x0A160001

end Sys2Proof.Config
end

