-- ==== Sys2Proof/Machine/State.lean ====
section
/-! DEFINITION. The state of the controller, block by block as Table 0-1 of spec/00_scope.md lists
them, and its value after a power-on reset. Plain data throughout. -/

namespace Sys2Proof.Machine

/-! ### Fixed sets of names -/

/-- The run state (R143). -/
inductive RunState where
  | stopped | starting | running | stopping | faulted
  deriving DecidableEq, Repr

/-- The fault code (R151, Table 8-7). -/
inductive FaultCode where
  | none | fetchError | poolError | pageError | postError | linkDown
  deriving DecidableEq, Repr

/-- The setup result (R146, Table 8-4). -/
inductive SetupResult where
  | ok | readError | badAlignment | badRingSize | badPageSize | badModeration | badSettle
  deriving DecidableEq, Repr

/-- The fetch state (R110). -/
inductive FetchState where
  | off | idle | reading | holding | fenced
  deriving DecidableEq, Repr

/-- ORDER_DONE status codes (Table 6-11). -/
inductive Status where
  | ok | cancelled | halted | timedOut | gateLost | tagBusy | badOrder | noTarget
  deriving DecidableEq, Repr

/-- The end reason of an order (R55). -/
inductive EndReason where
  | ok | cancelled | halted | timedOut | gateLost
  deriving DecidableEq, Repr

/-- The cause of a fire (R33). -/
inductive Cause where
  | pattern | timeout | start
  deriving DecidableEq, Repr

/-- How the active lines of a pattern combine (R15). -/
inductive Combine where
  | any | all
  deriving DecidableEq, Repr

/-- The fire mode of a pattern (R15). -/
inductive FireMode where
  | level | entry
  deriving DecidableEq, Repr

/-- The watch substates (R17). -/
inductive WatchState where
  | clearWait | trueWait | hold
  deriving DecidableEq, Repr

/-- The top states of a slot (R40); WATCHING has its substate. -/
inductive SlotState where
  | free | gated | watching (sub : WatchState) | delaying | running | closing
  deriving DecidableEq, Repr

/-- How far the end of a firing or of an order has been handed on (R54, R57): its page not yet,
its page done, the last firing counted. -/
inductive HandOn where
  | pagePending | pageDone | completed
  deriving DecidableEq, Repr

/-- The notice codes (R134). -/
inductive NoticeCode where
  | poolDry | poolBad
  deriving DecidableEq, Repr

/-- The event flags (R140), in the bit order of Table 8-8. -/
inductive EventFlag where
  | doneReady | notice | stopped | fault | writeRefused
  deriving DecidableEq, Repr

/-- Which writes the Host Link can report as not delivered (R151). -/
inductive WriteClass where
  | page | completion
  deriving DecidableEq, Repr

/-! ### Bus-master traffic -/

/-- A read issued and not yet answered: its tag, its address, the microseconds since the issue, and
whether the Host Link answers it as an error at once because bus mastering is disabled (R151). -/
structure BusRead where
  tag : Nat
  address : BitVec 64
  elapsed : Nat
  refused : Bool
  deriving DecidableEq, Repr

/-- One item the card has issued to the link: a write to host memory or the MSI message. -/
inductive LinkWrite where
  | memory (address : BitVec 64) (bytes : List Byte)
  | msi
  deriving DecidableEq, Repr

/-- The Host Link: the two enables of the configuration space (R141, R151, R155), the number of the
next read tag, the reports of writes not delivered that the Run Controller has not yet acted on
(R151), and everything issued so far, oldest first (R104, R132). -/
structure HostLink where
  busMaster : Bool
  msi : Bool
  nextTag : Nat
  undelivered : List WriteClass
  issued : List LinkWrite
  deriving DecidableEq, Repr

/-! ### Run Controller -/

/-- One entry of the channel table (R76). -/
structure Channel where
  enabled : Bool
  settle : Byte
  deriving DecidableEq, Repr

/-- The card's copy of the Setup Record (Table 8-1, Table 9-1). -/
structure SetupCopy where
  orderBase : BitVec 64
  poolBase : BitVec 64
  doneBase : BitVec 64
  orderSize : BitVec 16
  poolSize : BitVec 16
  doneSize : BitVec 16
  moderationCount : Byte
  pageSize : BitVec 32
  flushInterval : BitVec 16
  moderationDelay : BitVec 16
  channels : Vector Channel 12
  debounce : Vector Byte 16
  deriving DecidableEq, Repr

/-- The copy while it is not set (R155): every channel disabled; the values that are 'not set' are
held as zeros. DESIGN CHOICE, unsafe (log entry 12). -/
def SetupCopy.cleared : SetupCopy :=
  { orderBase := 0, poolBase := 0, doneBase := 0, orderSize := 0, poolSize := 0, doneSize := 0,
    moderationCount := 0, pageSize := 0, flushInterval := 0, moderationDelay := 0,
    channels := Vector.replicate 12 { enabled := false, settle := 0 },
    debounce := Vector.replicate 16 0 }

/-- The Run Controller (Table 8-1). `epoch` is the model's own: how often the timestamp counter has
wrapped since it was last set to 0 (log entry 6). -/
structure RunControl where
  runState : RunState
  faultCode : FaultCode
  setupResult : SetupResult
  setupRead : Option BusRead
  copy : SetupCopy
  timestamp : Timestamp
  epoch : Nat
  orderNumber : BitVec 32
  fireNumber : BitVec 32
  deriving DecidableEq, Repr

/-! ### Line Monitor -/

/-- One line (Table 1-1). `qualifying` is none in STEADY, and the elapsed microseconds of the
qualification timer in QUALIFYING. -/
structure Line where
  raw : Bool
  debounce : Byte
  qualifying : Option Nat
  level : Bool
  deriving DecidableEq, Repr

/-- A line event (R6). -/
structure LineEvent where
  time : Timestamp
  word : LineWord
  changed : LineWord
  deriving DecidableEq, Repr

/-- The Line Monitor. `latest` is the model's own: the line event of the present microsecond that a
further change at the same moment still joins (R6, log entry 4). -/
structure LineMonitor where
  lines : Vector Line 16
  latest : Option LineEvent
  deriving DecidableEq, Repr

/-! ### Completion records -/

/-- An ORDER_DONE record without the fields the Poster fills in (R136). -/
structure OrderDoneRecord where
  status : Status
  tag : BitVec 16
  orderNumber : BitVec 32
  detail : BitVec 4
  firings : BitVec 16
  pages : BitVec 16
  ended : Timestamp
  stored : BitVec 32
  missed : BitVec 32
  dropped : BitVec 32
  deriving DecidableEq, Repr

/-- A FIRED record (R35). -/
structure FiredRecord where
  tag : BitVec 16
  orderNumber : BitVec 32
  fireNumber : BitVec 32
  firingIndex : Byte
  cause : Cause
  onset : Timestamp
  fireTime : Timestamp
  snapshot : LineWord
  deriving DecidableEq, Repr

/-- The flags of a page (Table 5-6). -/
structure PageFlags where
  endOfFiring : Bool
  endOfOrder : Bool
  flushed : Bool
  unused : Bool
  deriving DecidableEq, Repr

/-- A PAGE record (R99, R106). -/
structure PageRecord where
  tag : BitVec 16
  orderNumber : BitVec 32
  ident : BitVec 32
  bytesUsed : BitVec 32
  sequence : BitVec 16
  scans : BitVec 16
  flags : PageFlags
  deriving DecidableEq, Repr

/-- A NOTICE record (R134); the occurrence count stops at 65535. -/
structure NoticeRecord where
  code : NoticeCode
  count : Nat
  ident : BitVec 32
  time : Timestamp
  deriving DecidableEq, Repr

/-- A record of the Post Queue (R136). -/
inductive CompletionRecord where
  | orderDone (record : OrderDoneRecord)
  | fired (record : FiredRecord)
  | page (record : PageRecord)
  | notice (record : NoticeRecord)
  deriving DecidableEq, Repr

/-! ### Order Fetch Unit -/

/-- The order read in flight; `withdrawn` once ORDER_TAIL was written equal to the head (R112). -/
structure OrderRead where
  read : BusRead
  withdrawn : Bool
  deriving DecidableEq, Repr

/-- The 64 bytes of an order, byte 0 least significant (R160). -/
abbrev OrderImage := BitVec 512

/-- The held order: the 64 bytes as read and the validation result, 0 for a valid order (R113). -/
structure HeldOrder where
  image : OrderImage
  detail : BitVec 4
  deriving DecidableEq, Repr

/-- A FENCE that has been taken (R121). The outcome has its end time. -/
structure Fence where
  tag : BitVec 16
  orderNumber : BitVec 32
  limit : BitVec 16
  timer : Option Nat
  outcome : Option (Status × Timestamp)
  deriving DecidableEq, Repr

/-- The Order Fetch Unit (Table 6-1). -/
structure OrderFetch where
  state : FetchState
  head : Nat
  read : Option OrderRead
  held : Option HeldOrder
  fence : Option Fence
  deriving DecidableEq, Repr

/-! ### Arm Table -/

/-- A trigger pattern (R15). -/
structure Pattern where
  mask : LineWord
  levels : LineWord
  combine : Combine
  fireMode : FireMode
  deriving DecidableEq, Repr

/-- What an ARM order has of its own (R114); the gate tag is present with the flag GATED. -/
structure ArmOrder where
  pattern : Pattern
  holdTime : BitVec 16
  armTimeout : BitVec 16
  fireOnTimeout : Bool
  gateTag : Option (BitVec 16)
  deriving DecidableEq, Repr

/-- The kind of an order in a slot, with the fields only that kind has (R114). -/
inductive OrderKind where
  | arm (order : ArmOrder)
  | sample (startDelay : BitVec 24)
  deriving DecidableEq, Repr

/-- One scan entry (R77). -/
structure ScanEntry where
  channel : Fin 12
  averaging : Byte
  deriving DecidableEq, Repr

/-- The order copy of a slot (R41). -/
structure OrderCopy where
  tag : BitVec 16
  number : BitVec 32
  kind : OrderKind
  priority : Fin 4
  notifyFire : Bool
  rearm : Byte
  scanCount : BitVec 16
  interval : BitVec 24
  entries : List ScanEntry
  deriving DecidableEq, Repr

/-- An event of a gate that the follower has not yet taken, with the moment of its target
(R46, R47). -/
inductive GateEvent where
  | opening (time : Timestamp)
  | loss (time : Timestamp)
  deriving DecidableEq, Repr

/-- A pool descriptor (R88). -/
structure Descriptor where
  address : BitVec 64
  ident : BitVec 32
  deriving DecidableEq, Repr

/-- A piece of work that waits for the Page Writer (R105): the moment at which it arose (in whole
microseconds, log entry 33), and the model's own mark that it was waiting when a stall ended (log entry 15). -/
structure WorkItem where
  arose : Moment
  held : Bool
  deriving DecidableEq, Repr

/-- A piece of work as it arises. -/
def WorkItem.fresh (moment : Moment) : WorkItem := { arose := moment, held := false }

/-- The open page of a slot (R93). `age` is the age timer in microseconds; `expired` is its expiry
at the flush interval, while that expiry waits to be taken (R102, R105). -/
structure OpenPage where
  descriptor : Descriptor
  fill : Nat
  scans : Nat
  first : Timestamp
  age : Option Nat
  expired : Option WorkItem
  deriving DecidableEq, Repr

/-- A page whose close has begun (R98): its flags, and whether the slot asked for the close (R101). -/
structure ClosingPage where
  page : OpenPage
  flags : PageFlags
  requested : Bool
  deriving DecidableEq, Repr

/-- A slot record (Table 3-1 with R63, R17, R93). Timers are none while stopped, and otherwise hold
the elapsed microseconds. `requestSince` is the slot's request for the close of its page while it
waits (R101, R105). `becameDue` is the model's own: the scans of the order that became due, modulo
2^32 (R52, log entry 29). -/
structure Slot where
  order : OrderCopy
  state : SlotState
  endReason : Option EndReason
  endTime : Option Timestamp
  firings : Nat
  resolved : Nat
  dueCount : Nat
  nextDue : Option Moment
  intervalTimer : Option Nat
  missedRun : Nat
  holdTimer : Option Nat
  armTimer : Option Nat
  delayTimer : Option Nat
  onset : Option Timestamp
  gateTarget : Option (Fin 32)
  gateEvents : List GateEvent
  offered : List LineEvent
  becameDue : BitVec 32
  stored : BitVec 32
  missed : BitVec 32
  dropped : BitVec 32
  pagesPosted : BitVec 16
  pageSequence : BitVec 16
  openPage : Option OpenPage
  closingPage : Option ClosingPage
  carriedMisses : Nat
  carriedFiring : Option Byte
  pendingFired : Option FiredRecord
  inConversion : Bool
  inStaging : Nat
  handOn : HandOn
  requestSince : Option WorkItem
  deriving DecidableEq, Repr

/-- The order copy of a slot that holds no order. -/
def OrderCopy.blank : OrderCopy :=
  { tag := 0, number := 0, kind := .sample 0, priority := 0, notifyFire := false, rearm := 0,
    scanCount := 0, interval := 0, entries := [] }

/-- The slot record that a given order enters with (R41, R93). -/
def Slot.holding (order : OrderCopy) (state : SlotState) : Slot :=
  { order := order, state := state, endReason := none, endTime := none, firings := 0,
    resolved := 0, dueCount := 0, nextDue := none, intervalTimer := none, missedRun := 0,
    holdTimer := none, armTimer := none, delayTimer := none, onset := none, gateTarget := none,
    gateEvents := [], offered := [], becameDue := 0, stored := 0, missed := 0, dropped := 0,
    pagesPosted := 0, pageSequence := 0, openPage := none, closingPage := none, carriedMisses := 0,
    carriedFiring := none, pendingFired := none, inConversion := false, inStaging := 0,
    handOn := .pagePending, requestSince := none }

/-- A FREE slot: fields other than the state carry no meaning (R39) and are held blank.
DESIGN CHOICE, unsafe only for what no command reads (log entry 21). -/
def Slot.free : Slot := Slot.holding OrderCopy.blank .free

/-! ### Scans -/

/-- An entry of the Due Queue (R69). -/
structure DueEntry where
  slot : Fin 32
  priority : Fin 4
  due : Moment
  firingIndex : Byte
  deriving DecidableEq, Repr

/-- What the Analog Front End is doing with the current entry, and for how long (R77). -/
inductive Phase where
  | settling (elapsed : Nat)
  | converting (elapsed : Nat)
  deriving DecidableEq, Repr

/-- The scan in conversion (R73). `values` are the finished entries; the next one of `entries` is
under way, with the `sum` of the conversions `made` of it so far (R79). -/
structure Conversion where
  slot : Fin 32
  firingIndex : Byte
  timestamp : Timestamp
  snapshot : LineWord
  entries : List ScanEntry
  values : List (BitVec 14)
  sum : Nat
  made : Nat
  phase : Phase
  deriving DecidableEq, Repr

/-- A scan result (R81), as a piece of work that arose when it entered the Staging Buffer (R105). -/
structure ScanResult where
  slot : Fin 32
  firingIndex : Byte
  timestamp : Timestamp
  snapshot : LineWord
  missedBefore : Nat
  values : List (BitVec 14)
  work : WorkItem
  deriving DecidableEq, Repr

/-- The Scan Scheduler and the Staging Buffer (Table 4-1). The converter busy flag is set exactly
while a scan is in conversion (R73, R82, R86), so it is read off `conversion`. -/
structure Scheduler where
  due : List DueEntry
  conversion : Option Conversion
  staging : List ScanResult
  deriving DecidableEq, Repr

/-! ### Page Writer, Completion Poster, event logic, register window -/

/-- The Page Writer's own state (Table 5-1). `closeWaits` is the model's own: since the last close
began, a condition of R98 has failed, so that the close is a stall (R105, log entry 15). -/
structure PageWriter where
  poolHead : Nat
  poolRead : Option BusRead
  cache : List Descriptor
  dry : Bool
  closeWaits : Bool
  deriving DecidableEq, Repr

/-- The Completion Poster (Table 7-1). -/
structure Poster where
  tail : Nat
  lap : Bool
  queue : List CompletionRecord
  dryNotice : Option NoticeRecord
  badNotice : Option NoticeRecord
  gathered : Nat
  timer : Option Nat
  deriving DecidableEq, Repr

/-- EVENTS and EVENT_MASK (R140, R141); bits as in Table 8-8. -/
structure EventLogic where
  flags : BitVec 5
  mask : BitVec 5
  deriving DecidableEq, Repr

/-- What the register window stores of its own (Table 8-8). -/
structure Window where
  run : Bool
  setupLo : BitVec 32
  setupHi : BitVec 32
  orderTail : Nat
  poolTail : Nat
  doneHead : Nat
  deriving DecidableEq, Repr

/-! ### The whole -/

/-- The state of the controller, and the commands that wait, first in first out. -/
structure State where
  pending : List Instr
  run : RunControl
  lines : LineMonitor
  fetch : OrderFetch
  slots : Vector Slot 32
  sched : Scheduler
  pages : PageWriter
  post : Poster
  events : EventLogic
  window : Window
  link : HostLink
  deriving DecidableEq, Repr

/-- Reasons the machine stops with a fault: none. The card's own faults are the run state FAULTED
(R152), a next state. -/
inductive Fault where
  deriving DecidableEq, Repr

/-- Reasons a command has no meaning. -/
inductive Refusal where
  /-- Raised by an arm of exec whose command has no meaning yet; safe. No arm raises it. -/
  | notModelled (mnemonic : String)
  deriving DecidableEq, Repr

/-- What a meaning answers. -/
abbrev Result := Host.Outcome State Fault Refusal

/-! ### Reset -/

/-- A line after a power-on reset with its input open (R14; raw level DESIGN CHOICE low, unsafe,
log entry 10). -/
def Line.reset : Line := { raw := false, debounce := 0, qualifying := none, level := false }

/-- Run Controller after a power-on reset (Table 8-1). -/
def RunControl.reset : RunControl :=
  { runState := .stopped, faultCode := .none, setupResult := .ok, setupRead := none,
    copy := SetupCopy.cleared, timestamp := 0, epoch := 0, orderNumber := 0, fireNumber := 0 }

/-- Order Fetch Unit after a reset (Table 6-9). -/
def OrderFetch.reset : OrderFetch :=
  { state := .off, head := 0, read := none, held := none, fence := none }

/-- Every slot FREE (R39). -/
def freeSlots : Vector Slot 32 := Vector.replicate 32 Slot.free

/-- Scanning state after a reset (Table 4-7). -/
def Scheduler.reset : Scheduler := { due := [], conversion := none, staging := [] }

/-- Page Writer after a reset (Table 5-8). -/
def PageWriter.reset : PageWriter :=
  { poolHead := 0, poolRead := none, cache := [], dry := false, closeWaits := false }

/-- Completion Poster after a reset (R142). -/
def Poster.reset : Poster :=
  { tail := 0, lap := true, queue := [], dryNotice := none, badNotice := none, gathered := 0,
    timer := none }

/-- EVENTS and EVENT_MASK after a reset (R142). -/
def EventLogic.reset : EventLogic := { flags := 0, mask := 0 }

/-- Register window after a reset (Table 8-8). -/
def Window.reset : Window :=
  { run := false, setupLo := 0, setupHi := 0, orderTail := 0, poolTail := 0, doneHead := 0 }

/-- Host Link after a power-on reset: bus mastering and MSI disabled (R155). The first read tag is
0: DESIGN CHOICE, unsafe (log entry 7). -/
def HostLink.reset : HostLink :=
  { busMaster := false, msi := false, nextTag := 0, undelivered := [], issued := [] }

/-- The controller right after a power-on reset (R155), with nothing waiting. -/
def State.reset : State :=
  { pending := [], run := RunControl.reset,
    lines := { lines := Vector.replicate 16 Line.reset, latest := none },
    fetch := OrderFetch.reset, slots := freeSlots, sched := Scheduler.reset,
    pages := PageWriter.reset, post := Poster.reset, events := EventLogic.reset,
    window := Window.reset, link := HostLink.reset }

end Sys2Proof.Machine
end

