-- ==== Sys2Proof/Machine/Operands.lean ====
section
/-! DEFINITION. The operands of the commands: fields of the three records the card reads (R160,
Tables 9-1 to 9-5), the validation of an order (R113), the checks of the Setup Record (R146), the
code of a conversion (R78), and register offsets (Table 8-8). A record is one bit vector whose
byte 0 is the least significant, so a little-endian field of w bits at byte offset o is the w bits
from bit 8 * o on (scope 3.1). -/

namespace Sys2Proof.Machine

/-- The `w`-bit field at byte offset `o` of a record. -/
def recordField {n : Nat} (record : BitVec n) (o w : Nat) : BitVec w := record.extractLsb' (8 * o) w

/-! ### Pool descriptor (Table 9-2) -/

/-- The descriptor in 16 bytes read from the Pool Ring. -/
def Descriptor.ofRecord (data : BitVec 128) : Descriptor :=
  { address := recordField data 0x00 64, ident := recordField data 0x08 32 }

/-- A descriptor is bad when its page address is 0 or not a multiple of 64 (R90). -/
def Descriptor.bad (d : Descriptor) : Bool := d.address == 0 || d.address.toNat % 64 != 0

/-! ### Setup Record (Table 9-1) -/

/-- The channel table entry of channel `c`: bit 0 of the channel byte enables, byte 1 settles. -/
def setupChannel (data : BitVec 1024) (c : Fin 12) : Channel :=
  { enabled := (recordField data (0x28 + 2 * c.val) 8).getLsbD 0,
    settle := recordField data (0x29 + 2 * c.val) 8 }

/-- The copy the card makes of the 128 bytes. -/
def SetupCopy.ofRecord (data : BitVec 1024) : SetupCopy :=
  { orderBase := recordField data 0x00 64, poolBase := recordField data 0x08 64,
    doneBase := recordField data 0x10 64, orderSize := recordField data 0x18 16,
    poolSize := recordField data 0x1A 16, doneSize := recordField data 0x1C 16,
    moderationCount := recordField data 0x1E 8, pageSize := recordField data 0x20 32,
    flushInterval := recordField data 0x24 16, moderationDelay := recordField data 0x26 16,
    channels := Vector.ofFn (setupChannel data),
    debounce := Vector.ofFn fun l : Fin 16 => recordField data (0x40 + l.val) 8 }

/-- The ring sizes a check accepts: powers of two from 16 to 4096 (R146 check 2). -/
def ringSizeOk (size : BitVec 16) : Bool :=
  [16, 32, 64, 128, 256, 512, 1024, 2048, 4096].contains size.toNat

/-- The page sizes a check accepts: powers of two from 1024 to 65536 (R146 check 3). -/
def pageSizeOk (size : BitVec 32) : Bool :=
  [1024, 2048, 4096, 8192, 16384, 32768, 65536].contains size.toNat

/-- A channel passes check 5 when it is disabled or its settle time is 1 to 64 (R146). -/
def Channel.settleOk (c : Channel) : Bool :=
  !c.enabled || (1 ≤ c.settle.toNat && c.settle.toNat ≤ 64)

/-- The setup result of a record: the first check of Table 8-4 that fails (R146). -/
def SetupCopy.check (c : SetupCopy) : SetupResult :=
  if c.orderBase.toNat % 64 != 0 || c.poolBase.toNat % 64 != 0 || c.doneBase.toNat % 64 != 0 then
    .badAlignment
  else if !(ringSizeOk c.orderSize && ringSizeOk c.poolSize && ringSizeOk c.doneSize) then
    .badRingSize
  else if !pageSizeOk c.pageSize then .badPageSize
  else if c.moderationCount == 0 then .badModeration
  else if !(c.channels.toList.all Channel.settleOk) then .badSettle
  else .ok

/-! ### Orders (Tables 9-3 to 9-5) -/

/-- kind, the byte at 0x00. -/
def OrderImage.kind (o : OrderImage) : Byte := recordField o 0x00 8
/-- flags, the byte at 0x01. -/
def OrderImage.flags (o : OrderImage) : Byte := recordField o 0x01 8
/-- tag, at 0x02. -/
def OrderImage.tag (o : OrderImage) : BitVec 16 := recordField o 0x02 16
/-- priority class, at 0x04. -/
def OrderImage.priority (o : OrderImage) : Byte := recordField o 0x04 8
/-- pattern mask, at 0x08. -/
def OrderImage.mask (o : OrderImage) : LineWord := recordField o 0x08 16
/-- pattern levels, at 0x0A. -/
def OrderImage.levels (o : OrderImage) : LineWord := recordField o 0x0A 16
/-- pattern mode, at 0x0C: bit 0 combine, bit 1 fire mode. -/
def OrderImage.mode (o : OrderImage) : Byte := recordField o 0x0C 8
/-- rearm count, at 0x0D. -/
def OrderImage.rearm (o : OrderImage) : Byte := recordField o 0x0D 8
/-- hold time, at 0x0E. -/
def OrderImage.holdTime (o : OrderImage) : BitVec 16 := recordField o 0x0E 16
/-- arm timeout, at 0x10. -/
def OrderImage.armTimeout (o : OrderImage) : BitVec 16 := recordField o 0x10 16
/-- gate tag, at 0x12. -/
def OrderImage.gateTag (o : OrderImage) : BitVec 16 := recordField o 0x12 16
/-- scan count, at 0x14. -/
def OrderImage.scanCount (o : OrderImage) : BitVec 16 := recordField o 0x14 16
/-- entry count, at 0x16. -/
def OrderImage.entryCount (o : OrderImage) : Byte := recordField o 0x16 8
/-- scan interval, at 0x18. -/
def OrderImage.interval (o : OrderImage) : BitVec 24 := recordField o 0x18 24
/-- start delay, at 0x1C. -/
def OrderImage.startDelay (o : OrderImage) : BitVec 24 := recordField o 0x1C 24
/-- channel byte of scan entry `k`, at 0x20 + 2k. -/
def OrderImage.channel (o : OrderImage) (k : Nat) : Byte := recordField o (0x20 + 2 * k) 8
/-- averaging byte of scan entry `k`, at 0x21 + 2k. -/
def OrderImage.averaging (o : OrderImage) (k : Nat) : Byte := recordField o (0x21 + 2 * k) 8
/-- target tag of a CANCEL, at 0x08. -/
def OrderImage.targetTag (o : OrderImage) : BitVec 16 := recordField o 0x08 16
/-- line mask of a LINES, at 0x08. -/
def OrderImage.lineMask (o : OrderImage) : LineWord := recordField o 0x08 16
/-- debounce time of a LINES, at 0x0A. -/
def OrderImage.debounce (o : OrderImage) : Byte := recordField o 0x0A 8
/-- fence limit of a FENCE, at 0x08. -/
def OrderImage.fenceLimit (o : OrderImage) : BitVec 16 := recordField o 0x08 16

/-- The flag NOTIFY_FIRE (Table 9-5). -/
def OrderImage.notifyFire (o : OrderImage) : Bool := o.flags.getLsbD 0
/-- The flag FIRE_ON_TIMEOUT (Table 9-5). -/
def OrderImage.fireOnTimeout (o : OrderImage) : Bool := o.flags.getLsbD 1
/-- The flag GATED (Table 9-5). -/
def OrderImage.gated (o : OrderImage) : Bool := o.flags.getLsbD 2

/-- The encodings of the order kinds (Table 9-5). -/
def kindArm : Byte := 1
/-- SAMPLE. -/
def kindSample : Byte := 2
/-- CANCEL. -/
def kindCancel : Byte := 3
/-- LINES. -/
def kindLines : Byte := 4
/-- FENCE. -/
def kindFence : Byte := 5

/-- The order is an ARM or a SAMPLE. -/
def OrderImage.takesSlot (o : OrderImage) : Bool := o.kind == kindArm || o.kind == kindSample

/-- The positions of the scan entries within the entry count (R113: only those are checked). -/
def OrderImage.entryPositions (o : OrderImage) : List Nat := List.range o.entryCount.toNat

/-- Check 1: the kind is none of the five. -/
def OrderImage.unknownKind (o : OrderImage) : Bool := o.kind == 0 || 5 < o.kind.toNat
/-- Check 2: an ARM or SAMPLE with a priority class above 3. -/
def OrderImage.badPriority (o : OrderImage) : Bool := o.takesSlot && 3 < o.priority.toNat
/-- Check 3: a flag bit that names no flag, or a flag the kind does not use. -/
def OrderImage.badFlags (o : OrderImage) : Bool :=
  (o.kind == kindSample && (o.gated || o.fireOnTimeout))
    || (!o.takesSlot && o.flags != 0) || o.flags &&& 0xF8 != 0
/-- Check 4: an ARM or a LINES whose mask is 0. -/
def OrderImage.emptyMask (o : OrderImage) : Bool :=
  (o.kind == kindArm && o.mask == 0) || (o.kind == kindLines && o.lineMask == 0)
/-- Check 5: an ARM or SAMPLE whose entry count is 0 or above 8. -/
def OrderImage.badEntryCount (o : OrderImage) : Bool :=
  o.takesSlot && (o.entryCount == 0 || 8 < o.entryCount.toNat)
/-- Check 6: an entry of an ARM or SAMPLE names a channel above 11. -/
def OrderImage.badChannel (o : OrderImage) : Bool :=
  o.takesSlot && o.entryPositions.any fun k => 11 < (o.channel k).toNat
/-- Check 7: an entry of an ARM or SAMPLE names a disabled channel. -/
def OrderImage.channelOff (channels : Vector Channel 12) (o : OrderImage) : Bool :=
  o.takesSlot && o.entryPositions.any fun k => !(channels[(Fin.ofNat 12 (o.channel k).toNat)]).enabled
/-- Check 8: an entry of an ARM or SAMPLE has an averaging count other than 1, 2, 4 and 8. -/
def OrderImage.badAverage (o : OrderImage) : Bool :=
  o.takesSlot && o.entryPositions.any fun k => !([1, 2, 4, 8].contains (o.averaging k).toNat)
/-- Check 9: an ARM or SAMPLE with a scan count of 0 and a rearm count above 0. -/
def OrderImage.continuousRearm (o : OrderImage) : Bool :=
  o.takesSlot && o.scanCount == 0 && o.rearm != 0
/-- Check 10: a SAMPLE with a rearm count above 0. -/
def OrderImage.sampleRearm (o : OrderImage) : Bool := o.kind == kindSample && o.rearm != 0

/-- The checks of Table 6-3 with their detail codes, in the order they are made. -/
def validationChecks (channels : Vector Channel 12) (o : OrderImage) : List (Bool × BitVec 4) :=
  [(o.unknownKind, 1), (o.badPriority, 2), (o.badFlags, 3), (o.emptyMask, 4),
   (o.badEntryCount, 5), (o.badChannel, 6), (o.channelOff channels, 7), (o.badAverage, 8),
   (o.continuousRearm, 9), (o.sampleRearm, 10)]

/-- The detail code of the first failed check, 0 when none fails (R113). -/
def validate (channels : Vector Channel 12) (o : OrderImage) : BitVec 4 :=
  (((validationChecks channels o).find? Prod.fst).map Prod.snd).getD 0

/-- The scan entries within the entry count (R41, Table 9-3). -/
def OrderImage.scanEntries (o : OrderImage) : List ScanEntry :=
  o.entryPositions.map fun k =>
    { channel := Fin.ofNat 12 (o.channel k).toNat, averaging := o.averaging k }

/-- The pattern of an ARM (R15, Table 9-3). -/
def OrderImage.pattern (o : OrderImage) : Pattern :=
  { mask := o.mask, levels := o.levels,
    combine := if o.mode.getLsbD 0 then .all else .any,
    fireMode := if o.mode.getLsbD 1 then .entry else .level }

/-- The order copy that a slot receives at admission, with the number given at taking (R41): only
the fields that R114 lists for the kind. -/
def OrderImage.copy (o : OrderImage) (number : BitVec 32) : OrderCopy :=
  { tag := o.tag, number := number,
    kind :=
      if o.kind == kindArm then
        .arm { pattern := o.pattern, holdTime := o.holdTime, armTimeout := o.armTimeout,
               fireOnTimeout := o.fireOnTimeout,
               gateTag := if o.gated then some o.gateTag else none }
      else .sample o.startDelay,
    priority := Fin.ofNat 4 o.priority.toNat, notifyFire := o.notifyFire, rearm := o.rearm,
    scanCount := o.scanCount, interval := o.interval, entries := o.scanEntries }

/-! ### Conversions (R78) -/

/-- The code of an input voltage given in nanovolts: (V + 10 V) * 16384 / 20 V rounded down, held
at the end codes outside the range (R78). The unit is a DESIGN CHOICE, safe (log entry 13). -/
def conversionCode (nanovolts : Int) : BitVec 14 :=
  BitVec.ofNat 14 (min ((nanovolts + 10000000000) * 16384 / 20000000000).toNat 16383)

/-! ### Register offsets (Table 8-8) -/

/-- IDENT. -/
def offIdent : BitVec 6 := 0x00
/-- CONTROL. -/
def offControl : BitVec 6 := 0x04
/-- STATUS. -/
def offStatus : BitVec 6 := 0x08
/-- EVENTS. -/
def offEvents : BitVec 6 := 0x0C
/-- EVENT_MASK. -/
def offEventMask : BitVec 6 := 0x10
/-- SETUP_LO. -/
def offSetupLo : BitVec 6 := 0x14
/-- SETUP_HI. -/
def offSetupHi : BitVec 6 := 0x18
/-- ORDER_TAIL. -/
def offOrderTail : BitVec 6 := 0x1C
/-- POOL_TAIL. -/
def offPoolTail : BitVec 6 := 0x20
/-- DONE_HEAD. -/
def offDoneHead : BitVec 6 := 0x24
/-- ORDER_HEAD. -/
def offOrderHead : BitVec 6 := 0x28
/-- LINE_STATE. -/
def offLineState : BitVec 6 := 0x2C

end Sys2Proof.Machine
end

