-- ==== Sys2Proof/Machine/Records.lean ====
section
/-! DEFINITION. The bytes of the three records the card writes: completion records (R161, Tables 9-6
to 9-8), page headers and scan records (R162, Tables 9-9 and 9-10). Little-endian throughout. -/

namespace Sys2Proof.Machine

/-- The `n` bytes of a word, least significant first (scope 3.1). -/
def leBytes (n : Nat) {w : Nat} (x : BitVec w) : List Byte :=
  (List.range n).map fun k => x.extractLsb' (8 * k) 8

/-- Kind codes (Table 9-8). -/
def CompletionRecord.kindCode : CompletionRecord → Byte
  | .orderDone _ => 1
  | .fired _ => 2
  | .page _ => 3
  | .notice _ => 4

/-- Status codes (Table 6-11). -/
def Status.code : Status → BitVec 4
  | .ok => 0
  | .cancelled => 1
  | .halted => 2
  | .timedOut => 3
  | .gateLost => 4
  | .tagBusy => 5
  | .badOrder => 6
  | .noTarget => 7

/-- The status of a record: OK for every kind but ORDER_DONE (Table 7-4). -/
def CompletionRecord.status : CompletionRecord → Status
  | .orderDone r => r.status
  | .fired _ | .page _ | .notice _ => .ok

/-- The detail code of a record: 0 for every kind but ORDER_DONE. -/
def CompletionRecord.detail : CompletionRecord → BitVec 4
  | .orderDone r => r.detail
  | .fired _ | .page _ | .notice _ => 0

/-- The tag of a record: 0 for NOTICE and UNUSED PAGE records (Table 7-4). -/
def CompletionRecord.tag : CompletionRecord → BitVec 16
  | .orderDone r => r.tag
  | .fired r => r.tag
  | .page r => r.tag
  | .notice _ => 0

/-- The order number of a record: 0 for NOTICE and UNUSED PAGE records (Table 7-4). -/
def CompletionRecord.orderNumber : CompletionRecord → BitVec 32
  | .orderDone r => r.orderNumber
  | .fired r => r.orderNumber
  | .page r => r.orderNumber
  | .notice _ => 0

/-- Cause codes (Table 9-8). -/
def Cause.code : Cause → Byte
  | .pattern => 1
  | .timeout => 2
  | .start => 3

/-- Notice codes (Table 9-8). -/
def NoticeCode.code : NoticeCode → Byte
  | .poolDry => 1
  | .poolBad => 2

/-- Page flags in bits 3 to 0 (Table 9-8). -/
def PageFlags.bits (f : PageFlags) : BitVec 16 :=
  (if f.endOfFiring then 1 else 0) ||| (if f.endOfOrder then 2 else 0)
    ||| (if f.flushed then 4 else 0) ||| (if f.unused then 8 else 0)

/-- The 22 bytes from 0x0A on (Table 9-7). -/
def CompletionRecord.bodyBytes : CompletionRecord → List Byte
  | .orderDone r =>
    leBytes 2 r.firings ++ leBytes 2 r.pages ++ leBytes 6 r.ended ++ leBytes 4 r.stored
      ++ leBytes 4 r.missed ++ leBytes 4 r.dropped
  | .fired r =>
    [r.firingIndex, r.cause.code] ++ leBytes 2 r.snapshot ++ leBytes 6 r.onset
      ++ leBytes 6 r.fireTime ++ leBytes 4 r.fireNumber ++ [0, 0]
  | .page r =>
    leBytes 2 r.sequence ++ leBytes 2 r.flags.bits ++ leBytes 2 r.scans ++ leBytes 4 r.bytesUsed
      ++ leBytes 4 r.ident ++ List.replicate 8 0
  | .notice r =>
    [r.code.code, 0] ++ leBytes 2 (BitVec.ofNat 16 r.count) ++ leBytes 6 r.time
      ++ leBytes 4 r.ident ++ List.replicate 8 0

/-- The 32 bytes of a completion record as written with the given lap bit and order head
(R132, R161, Table 9-6). -/
def CompletionRecord.bytes (r : CompletionRecord) (lap : Bool) (head : Nat) : List Byte :=
  [r.kindCode ||| (if lap then 0x80 else 0), r.detail ++ r.status.code]
    ++ leBytes 2 r.tag ++ leBytes 4 r.orderNumber
    ++ leBytes 2 ((BitVec.ofNat 12 head).setWidth 16) ++ r.bodyBytes

/-- The 16 bytes of a page header (R162, Table 9-9). -/
def pageHeaderBytes (tag sequence scans : BitVec 16) (flags : PageFlags) (first : Timestamp) :
    List Byte :=
  leBytes 2 tag ++ leBytes 2 sequence ++ leBytes 2 scans
    ++ leBytes 2 (flags.bits &&& 7) ++ leBytes 6 first ++ [0, 0]

/-- The 12 + 2n bytes of a scan record that are written (R162, Table 9-10). -/
def scanRecordBytes (timestamp : Timestamp) (snapshot : LineWord) (missedBefore : Nat)
    (firingIndex : Byte) (values : List (BitVec 14)) : List Byte :=
  leBytes 6 timestamp ++ leBytes 2 snapshot ++ leBytes 2 (BitVec.ofNat 16 missedBefore)
    ++ [firingIndex, BitVec.ofNat 8 values.length]
    ++ values.flatMap fun v => leBytes 2 (v.setWidth 16)

/-- The size of a scan record with `n` entries: 12 + 2n rounded up to a multiple of 4 (R92). -/
def scanRecordSize (n : Nat) : Nat := (12 + 2 * n + 3) / 4 * 4

end Sys2Proof.Machine
end

