-- ==== Sys2Proof/Machine/Flags.lean ====
section
/-! DEFINITION. The event flags, the MSI message (R140, R141) and what the Host Link issues. -/

namespace Sys2Proof.Machine

/-- The bit of a flag in EVENTS and EVENT_MASK (Table 8-8). -/
def EventFlag.bit : EventFlag → BitVec 5
  | .doneReady => 1
  | .notice => 2
  | .stopped => 4
  | .fault => 8
  | .writeRefused => 16

/-- The set of flags that are both set and enabled (R141). -/
def EventLogic.active (e : EventLogic) : BitVec 5 := e.flags &&& e.mask

/-- The set of active flags goes from empty to non-empty (R141). -/
def EventLogic.raises (before after : EventLogic) : Bool :=
  before.active == 0 && after.active != 0

/-- The Host Link issues the MSI message. -/
def State.issueMsi (s : State) : State := { s with link.issued := s.link.issued ++ [.msi] }

/-- EVENTS or EVENT_MASK changes to `e`; the MSI message is sent when R141 says so and MSI is
enabled in the configuration space. -/
def State.withEvents (s : State) (e : EventLogic) : State :=
  if s.events.raises e && s.link.msi then { s with events := e }.issueMsi else { s with events := e }

/-- A flag is set by its owner (R140). -/
def State.setFlag (s : State) (f : EventFlag) : State :=
  s.withEvents { s.events with flags := s.events.flags ||| f.bit }

/-- The Host Link issues a write to host memory; while bus mastering is disabled it also reports
the write as not delivered (R151). -/
def State.issueWrite (s : State) (kind : WriteClass) (address : BitVec 64) (bytes : List Byte) :
    State :=
  { s with
    link.issued := s.link.issued ++ [.memory address bytes]
    link.undelivered :=
      if s.link.busMaster then s.link.undelivered else s.link.undelivered ++ [kind] }

/-- The read the Host Link would issue next; while bus mastering is disabled it is answered as an
error at that moment (R151). -/
def State.nextRead (s : State) (address : BitVec 64) : BusRead :=
  { tag := s.link.nextTag, address := address, elapsed := 0, refused := !s.link.busMaster }

/-- The tag of that read is used up. -/
def State.useTag (s : State) : State := { s with link.nextTag := s.link.nextTag + 1 }

/-- The answer with data that carries `tag` answers this read. -/
def BusRead.answeredBy (r : BusRead) (tag : Nat) : Bool := r.tag == tag && !r.refused

/-- The completion timer of this read has reached 50 ms (R89, R111, R146). -/
def BusRead.timedOut (r : BusRead) (tag : Nat) : Bool :=
  r.tag == tag && Config.readTimeout ≤ r.elapsed

/-- A refused register write leaves everything as it stands and sets WRITE_REFUSED (R156). -/
def State.refuseWrite (s : State) : State := s.setFlag .writeRefused

end Sys2Proof.Machine
end

