-- ==== Sys2Proof/Machine/Ops.lean ====
section
/-! DEFINITION. The shared operations: time, the slots, the lines, the fire, the ending of an order,
the Due Queue, the Post Queue, pages, taking an order, and the entries to the run states. Every
meaning is one guard over these. -/

namespace Sys2Proof.Machine

/-! ### Time and run state -/

/-- The present value of the timestamp counter (R144). -/
def State.now (s : State) : Timestamp := s.run.timestamp

/-- The present moment: the counter with its wraps (R70, log entry 6), in whole microseconds (log
entry 33). -/
def State.moment (s : State) : Moment := s.run.epoch * 2 ^ 48 + s.run.timestamp.toNat

/-- The run state is RUNNING. -/
def State.isRunning (s : State) : Bool := s.run.runState == .running

/-- The run state is RUNNING or STOPPING: blocks that drain still work (Table 8-3). -/
def State.isLive (s : State) : Bool :=
  s.run.runState == .running || s.run.runState == .stopping

/-- A timer has reached its limit. -/
def timerReached (timer : Option Nat) (limit : Nat) : Bool :=
  match timer with
  | none => false
  | some t => limit ≤ t

/-- A command whose conditions hold has its effect; otherwise the event does not come about and
nothing changes (R40, log entry 2). -/
def State.whenever (s : State) (ready : Bool) (effect : State) : Result :=
  .next (if ready then effect else s)

/-! ### Slots -/

/-- The record of slot `i`. -/
def State.slot (s : State) (i : Fin 32) : Slot := s.slots[i]

/-- Slot `i` is given the record `x`. -/
def State.setSlot (s : State) (i : Fin 32) (x : Slot) : State :=
  { s with slots := s.slots.set i x }

/-- Every slot record is changed by `f`. -/
def State.mapSlots (s : State) (f : Slot → Slot) : State := { s with slots := s.slots.map f }

/-- All slot numbers, lowest first. -/
def slotNumbers : List (Fin 32) := List.finRange 32

/-- A slot in any state other than FREE is occupied (R40). -/
def Slot.occupied (x : Slot) : Bool := x.state != .free

/-- The slot is in WATCHING, in whichever substate (R8). -/
def Slot.isWatching (x : Slot) : Bool :=
  match x.state with
  | .watching _ => true
  | .free | .gated | .delaying | .running | .closing => false

/-- Every slot is FREE. -/
def State.allFree (s : State) : Bool := slotNumbers.all fun i => !(s.slot i).occupied

/-- The lowest-numbered FREE slot (R41). -/
def State.lowestFree (s : State) : Option (Fin 32) :=
  slotNumbers.find? fun i => !(s.slot i).occupied

/-- The occupied slot that holds a tag (R42). -/
def State.holderOf (s : State) (tag : BitVec 16) : Option (Fin 32) :=
  slotNumbers.find? fun i => (s.slot i).occupied && (s.slot i).order.tag == tag

/-- The slot is GATED on slot `i`. -/
def Slot.follows (x : Slot) (i : Fin 32) : Bool := x.state == .gated && x.gateTarget == some i

/-- A slot in GATED links to slot `i` (R57). -/
def State.hasFollower (s : State) (i : Fin 32) : Bool :=
  slotNumbers.any fun j => (s.slot j).follows i

/-- What a slot hears of an event of slot `i`: a follower of `i` is offered it (R45 to R47). -/
def Slot.hear (i : Fin 32) (e : GateEvent) (x : Slot) : Slot :=
  if x.follows i then { x with gateEvents := x.gateEvents ++ [e] } else x

/-- An event of slot `i` reaches every slot in GATED linked to it (R45 to R47). -/
def State.tellFollowers (s : State) (i : Fin 32) (e : GateEvent) : State :=
  s.mapSlots (Slot.hear i e)

/-- The scan interval of the slot's order in microseconds. -/
def Slot.intervalTime (x : Slot) : Nat := x.order.interval.toNat

/-- The scan count of the slot's order; 0 is continuous (R66). -/
def Slot.scanCount (x : Slot) : Nat := x.order.scanCount.toNat

/-- The firing index: the firings completed (R36). -/
def Slot.firingIndex (x : Slot) : Byte := BitVec.ofNat 8 x.firings

/-- The current firing is the order's last (R53). -/
def Slot.lastFiring (x : Slot) : Bool := x.firings + 1 == 1 + x.order.rearm.toNat

/-- The slot is ending its firing: RUNNING with every scan of the firing resolved (R53). -/
def Slot.ending (x : Slot) : Bool :=
  x.state == .running && x.scanCount != 0 && x.resolved == x.scanCount

/-- The timers, the onset, the line events offered, and the gate link are left: what every fire and
every ending does to the wait before it (R32 item 1, R56 items 2 and 3). -/
def Slot.leaveWait (x : Slot) : Slot :=
  { x with holdTimer := none, armTimer := none, delayTimer := none, onset := none, offered := [],
           gateTarget := none, gateEvents := [] }

/-! ### Post Queue -/

/-- The Post Queue holds fewer than 24 records (R131). -/
def State.postRoom (s : State) : Bool := s.post.queue.length < Config.postQueueSize

/-- A record joins the Post Queue as its newest (R131). When it takes the last place, a close under
way has to wait (R98, R105). -/
def State.postRecord (s : State) (r : CompletionRecord) : State :=
  { s with post.queue := s.post.queue ++ [r],
           pages.closeWaits :=
             s.pages.closeWaits || Config.postQueueSize ≤ s.post.queue.length + 1 }

/-! ### Lines -/

/-- The debounced line word (R6). -/
def lineWord (lines : Vector Line 16) : LineWord :=
  (List.finRange 16).foldl (fun w i => if lines[i].level then w ||| BitVec.twoPow 16 i else w) 0

/-- The debounced line word as it stands. -/
def State.word (s : State) : LineWord := lineWord s.lines.lines

/-- A WATCHING slot is offered a new line event (R8). -/
def Slot.offer (e : LineEvent) (x : Slot) : Slot :=
  if x.isWatching then { x with offered := x.offered ++ [e] } else x

/-- A WATCHING slot that was offered `old` last is offered the joined event in its place; any other
WATCHING slot is offered the joined event (R6, log entry 4). -/
def Slot.offerJoined (old new : LineEvent) (x : Slot) : Slot :=
  if x.isWatching && x.offered.getLast? == some old then
    { x with offered := x.offered.dropLast ++ [new] }
  else x.offer new

/-- The line event that a change at the same moment joins (R6): the latest one, if it is of this
microsecond and does not name a line of the change. -/
def State.joinable (s : State) (changed : LineWord) (sameMoment : Bool) : Option LineEvent :=
  s.lines.latest.filter fun e => sameMoment && e.time == s.now && e.changed &&& changed == 0

/-- One change of the debounced line word makes one line event, which is offered to every slot in
WATCHING (R6, R7, R8); a change at the same moment joins the event made there. -/
def State.makeLineEvent (s : State) (changed : LineWord) (sameMoment : Bool) : State :=
  match s.joinable changed sameMoment with
  | some old =>
    let e : LineEvent := { time := old.time, word := s.word, changed := old.changed ||| changed }
    { s.mapSlots (Slot.offerJoined old e) with lines.latest := some e }
  | none =>
    let e : LineEvent := { time := s.now, word := s.word, changed := changed }
    { s.mapSlots (Slot.offer e) with lines.latest := some e }

/-- The lines take the values `v`; where the word changes, a line event is made (R6). -/
def State.commitLines (s : State) (v : Vector Line 16) (sameMoment : Bool) : State :=
  let changed := s.word ^^^ lineWord v
  let t := { s with lines.lines := v }
  if changed == 0 then t else t.makeLineEvent changed sameMoment

/-- A change of the raw level acts on the line: follow at once with a debounce time of 0 (R5), start
a qualification (R2), or abandon the one in progress (R3). -/
def Line.rawChange (l : Line) (level : Bool) : Line :=
  if l.debounce == 0 then { l with raw := level, qualifying := none, level := level }
  else if l.qualifying.isSome then { l with raw := level, qualifying := none }
  else { l with raw := level, qualifying := if level != l.level then some 0 else none }

/-- The qualification timer has reached the debounce time with the raw level still departed (R4). -/
def Line.qualified (l : Line) : Bool :=
  timerReached l.qualifying l.debounce.toNat && l.raw != l.level

/-- The qualification succeeds (R4). -/
def Line.qualify (l : Line) : Line := { l with qualifying := none, level := l.raw }

/-- A new debounce time (Table 1-3). -/
def Line.retime (l : Line) (time : Byte) : Line :=
  if l.qualifying.isNone then { l with debounce := time }
  else if time == 0 then { l with debounce := time, qualifying := none, level := l.raw }
  else { l with debounce := time, qualifying := some 0 }

/-- A qualification in progress is abandoned at the entry to FAULTED (R13). -/
def Line.freeze (l : Line) : Line := { l with qualifying := none }

/-- The line resumes on leaving FAULTED from its frozen level (R13). -/
def Line.resume (l : Line) : Line :=
  if l.raw == l.level then { l with qualifying := none }
  else if l.debounce == 0 then { l with qualifying := none, level := l.raw }
  else { l with qualifying := some 0 }

/-- A line after a power-on or link reset, with its raw level as it is (R14, R5). -/
def Line.restart (l : Line) : Line :=
  { raw := l.raw, debounce := 0, qualifying := none, level := l.raw }

/-- Every line in `mask` takes its time of `times` (R11, R12). -/
def State.retimeLines (s : State) (mask : LineWord) (times : Fin 16 → Byte) : State :=
  s.commitLines
    (Vector.ofFn fun i =>
      if mask.getLsbD i then s.lines.lines[i].retime (times i) else s.lines.lines[i])
    false

/-- The Line Monitor freezes (R13). -/
def State.freezeLines (s : State) : State :=
  { s with lines := { lines := s.lines.lines.map Line.freeze, latest := none } }

/-- The Line Monitor resumes; its changes are one line event (R13). -/
def State.resumeLines (s : State) : State :=
  { s with lines.latest := none }.commitLines (s.lines.lines.map Line.resume) false

/-! ### Patterns -/

/-- The active lines of a pattern in a word (R16). -/
def Pattern.active (p : Pattern) (word : LineWord) : LineWord := ~~~(word ^^^ p.levels) &&& p.mask

/-- The condition of a pattern on a word (R16). -/
def Pattern.holds (p : Pattern) (word : LineWord) : Bool :=
  match p.combine with
  | .any => p.active word != 0
  | .all => p.active word == p.mask

/-! ### Due Queue -/

/-- Grant order (R70): class, then due time, then slot number. Due times are held in whole
microseconds, so scans of one class that become due at different moments of one microsecond (R6)
count as of one due time and go by slot number: DESIGN CHOICE, unsafe (log entry 33). -/
def DueEntry.before (a b : DueEntry) : Bool :=
  a.priority < b.priority
    || (a.priority == b.priority && (a.due < b.due || (a.due == b.due && a.slot < b.slot)))

/-- An entry is placed at its position in grant order (R71). -/
def insertDue (e : DueEntry) : List DueEntry → List DueEntry
  | [] => [e]
  | d :: ds => if e.before d then e :: d :: ds else d :: insertDue e ds

/-- Slot `i` has an entry waiting (R67). -/
def State.hasDue (s : State) (i : Fin 32) : Bool := s.sched.due.any fun d => d.slot == i

/-- The entry of slot `i` is taken out from whatever position it holds (R71). -/
def State.dropDue (s : State) (i : Fin 32) : State :=
  { s with sched.due := s.sched.due.filter fun d => d.slot != i }

/-- A due scan is counted missed (R51, R63, R67): scans missed, the resolved count and the missed
run. -/
def Slot.countMiss (x : Slot) : Slot :=
  { x with missed := x.missed + 1, missedRun := sat16 (x.missedRun + 1),
           resolved := if x.scanCount == 0 then x.resolved else x.resolved + 1 }

/-! ### The close of a page as a request of the slot (R101) -/

/-- The slot asks for the close of its page: its scans and its FIRED record have been handed on, and
its firing or its order has ended (R54, R57, R101). -/
def Slot.wantsClose (x : Slot) : Bool :=
  x.handOn == .pagePending && (x.ending || x.state == .closing) && !x.inConversion
    && x.inStaging == 0 && x.pendingFired.isNone

/-- A slot that asks with no page to close has its condition met at once (R54, R57, R101): it counts
as without a page once a close under way has been taken. -/
def Slot.pageSettled (x : Slot) : Slot :=
  if x.wantsClose && x.openPage.isNone && x.closingPage.isNone then
    { x with handOn := .pageDone, requestSince := none }
  else x

/-- The request of slot `i` is noted as it arises, for the order of the Page Writer's work (R105). A
request still waiting when its slot enters CLOSING keeps the moment at which it first arose: DESIGN
CHOICE, unsafe (log entry 32). -/
def State.noteRequest (s : State) (i : Fin 32) : State :=
  let x := s.slot i
  if x.wantsClose && x.requestSince.isNone then
    s.setSlot i { x with requestSince := some (.fresh s.moment) }
  else s

/-! ### The ending of an order (R55, R56) -/

/-- The record of a slot that enters CLOSING; `waiting` says that its Due Queue entry is removed. An
order that ended without firing has no page to hand on (R57). -/
def Slot.closed (x : Slot) (waiting : Bool) (reason : EndReason) (time : Timestamp) : Slot :=
  let y := if waiting then x.countMiss else x
  { y.leaveWait with
    state := .closing, endReason := some reason, endTime := some time, intervalTimer := none,
    nextDue := none, handOn := if x.state == .running then .pagePending else .pageDone }

/-- A slot enters CLOSING (R56): its waiting scan is counted missed and its followers lose their
gates. -/
def State.closeSlot (s : State) (i : Fin 32) (reason : EndReason) (time : Timestamp) : State :=
  (((s.setSlot i ((s.slot i).closed (s.hasDue i) reason time)).dropDue i).tellFollowers i
    (.loss time)).noteRequest i

/-- The last scan of a firing may have been resolved (R53): the order ends OK after its last firing,
and otherwise the slot is ending its firing. -/
def State.endFiring (s : State) (i : Fin 32) : State :=
  let x := s.slot i
  if x.ending then
    if x.lastFiring then s.closeSlot i .ok s.now
    else (s.setSlot i { x with intervalTimer := none, nextDue := none }).noteRequest i
  else s

/-! ### A scan becomes due (R63 to R67) -/

/-- The due count is raised, and with it the order's own count of scans due; when the due count
reaches the scan count the grid is exhausted (R52, R63, R64). -/
def Slot.raiseDue (x : Slot) : Slot :=
  let n := min (x.dueCount + 1) 65535
  let y := { x with dueCount := n, becameDue := x.becameDue + 1 }
  if x.scanCount != 0 && n == x.scanCount then { y with intervalTimer := none, nextDue := none }
  else y

/-- The Due Queue entry for a scan of slot `i` that becomes due now (R69). Its due time is the
present moment in whole microseconds: DESIGN CHOICE, unsafe (log entry 33). -/
def State.dueEntry (s : State) (i : Fin 32) : DueEntry :=
  { slot := i, priority := (s.slot i).order.priority, due := s.moment,
    firingIndex := (s.slot i).firingIndex }

/-- A scan of slot `i` becomes due: it is inserted, or counted missed while an older one waits
(R67). -/
def State.scanDue (s : State) (i : Fin 32) : State :=
  let x := (s.slot i).raiseDue
  if s.hasDue i then (s.setSlot i x.countMiss).endFiring i
  else { s.setSlot i x with sched.due := insertDue (s.dueEntry i) s.sched.due }

/-! ### The fire (R32) -/

/-- The FIRED record of a fire (R35). -/
def Slot.firedRecord (x : Slot) (number : BitVec 32) (cause : Cause) (onset time : Timestamp)
    (word : LineWord) : FiredRecord :=
  { tag := x.order.tag, orderNumber := x.order.number, fireNumber := number,
    firingIndex := x.firingIndex, cause := cause, onset := onset, fireTime := time,
    snapshot := word }

/-- The record of a slot that fires (R32 items 1, 4 and 6, R63). -/
def Slot.fired (x : Slot) (record : FiredRecord) (moment : Moment) : Slot :=
  { x.leaveWait with
    state := .running, resolved := 0, dueCount := 0, missedRun := 0,
    intervalTimer := if x.intervalTime == 0 then none else some 0,
    nextDue := if x.intervalTime == 0 then none else some moment,
    pendingFired := if x.order.notifyFire then some record else x.pendingFired,
    handOn := .pagePending, requestSince := none }

/-- Slot `i` fires: it takes the next fire number and a snapshot, opens its followers and enters
RUNNING with its first scan due (R32, R34). -/
def State.fire (s : State) (i : Fin 32) (cause : Cause) (onset time : Timestamp) : State :=
  let x := s.slot i
  let number := s.run.fireNumber + 1
  let record := x.firedRecord number cause onset time s.word
  (({ s with run.fireNumber := number }.setSlot i (x.fired record s.moment)).tellFollowers i
    (.opening time)).scanDue i

/-! ### The watch (R18 to R22) -/

/-- The slot is in the watch, waiting in substate `w` without a hold. -/
def Slot.waitIn (x : Slot) (w : WatchState) : Slot :=
  { x with state := .watching w, holdTimer := none, onset := none }

/-- The slot is in HOLD from `onset` on (R18, R21). -/
def Slot.holdFrom (x : Slot) (onset : Timestamp) : Slot :=
  { x with state := .watching .hold, holdTimer := some 0, onset := some onset }

/-- The condition of an ARM slot is true with nothing to wait for: it fires without a hold time, and
enters HOLD with one (R18, R19, R21). -/
def State.conditionTrue (s : State) (i : Fin 32) (a : ArmOrder) (time : Timestamp) : State :=
  if a.holdTime == 0 then s.fire i .pattern time time
  else s.setSlot i ((s.slot i).holdFrom time)

/-- Slot `i` enters the watch at `time` (R18, Table 2-4). A SAMPLE has no watch. -/
def State.enterWatch (s : State) (i : Fin 32) (time : Timestamp) : State :=
  let t := s.setSlot i { s.slot i with gateTarget := none, gateEvents := [], offered := [] }
  match (s.slot i).order.kind with
  | .sample _ => t
  | .arm a =>
    if a.pattern.holds s.word then
      match a.pattern.fireMode with
      | .entry => t.setSlot i ((t.slot i).waitIn .clearWait)
      | .level => t.conditionTrue i a time
    else t.setSlot i ((t.slot i).waitIn .trueWait)

/-- The arm timer as it starts: from 0 unless the arm timeout is 0 (R24). -/
def ArmOrder.startTimer (a : ArmOrder) : Option Nat := if a.armTimeout == 0 then none else some 0

/-! ### The completion of a firing that is not the last (R54, R61) -/

/-- The slot holds an ARM: a SAMPLE fires once and has no watch to return to (R37, R49). -/
def Slot.returns (x : Slot) : Bool :=
  match x.order.kind with
  | .arm _ => true
  | .sample _ => false

/-- A firing of slot `i` that is not the order's last completes: its page is done (R54). -/
def State.canReturn (s : State) (i : Fin 32) : Bool :=
  s.isRunning && (s.slot i).ending && (s.slot i).handOn == .pageDone
    && (s.slot i).pendingFired.isNone && (s.slot i).returns

/-- The arm timer of a slot as it starts afresh; a SAMPLE has none (R24, R37). -/
def Slot.restartArm (x : Slot) : Option Nat :=
  match x.order.kind with
  | .arm a => a.startTimer
  | .sample _ => none

/-- The firing is counted and the slot returns to the watch (R54, R37). -/
def State.returnToWatch (s : State) (i : Fin 32) : State :=
  let x := s.slot i
  (s.setSlot i { x with firings := x.firings + 1, handOn := .pagePending, requestSince := none,
                        armTimer := x.restartArm }).enterWatch i s.now

/-- The firing of slot `i` completes before the slot takes another event of this moment (R61). -/
def State.completeFiring (s : State) (i : Fin 32) : State :=
  if s.canReturn i then s.returnToWatch i else s

/-! ### Scans resolved by the Page Writer (R51, R65) -/

/-- A scan of slot `i` has been stored or dropped: the firing may end (R53), or a back-to-back order
may make its next scan due (R65, R66). That scan is inserted in this step, before a grant that the
emptied place in staging allows, where R75 lets either come first: DESIGN CHOICE, unsafe (log
entry 30). -/
def State.afterResolved (s : State) (i : Fin 32) : State :=
  let t := s.endFiring i
  let x := t.slot i
  let u :=
    if x.state == .running && x.intervalTime == 0 && (x.scanCount == 0 || x.dueCount < x.scanCount)
    then t.scanDue i else t
  u.noteRequest i

/-- The resolved count for a stored or dropped scan of the given firing (R51). -/
def Slot.resolveOne (x : Slot) (firing : Byte) : Nat :=
  if x.scanCount != 0 && firing == x.firingIndex then x.resolved + 1 else x.resolved

/-! ### Page Writer -/

/-- The flags of a page closed as full (Table 5-6). -/
def PageFlags.none : PageFlags :=
  { endOfFiring := false, endOfOrder := false, flushed := false, unused := false }

/-- The flags of a page closed for its slot (Table 5-6, R101). -/
def Slot.closeFlags (x : Slot) : PageFlags :=
  if x.state == .closing then
    { PageFlags.none with endOfFiring := x.endReason == some .ok, endOfOrder := true }
  else { PageFlags.none with endOfFiring := true }

/-- The Page Writer is stalled: a close waits (R105). -/
def State.stalled (s : State) : Bool := slotNumbers.any fun i => (s.slot i).closingPage.isSome

/-- The work that waits for the Page Writer: the oldest staged result, the close requests, the flush
expiries (R105). -/
def State.waitingWork (s : State) : List WorkItem :=
  (s.sched.staging.head?.map ScanResult.work).toList
    ++ slotNumbers.filterMap (fun i =>
        if (s.slot i).wantsClose && (s.slot i).openPage.isSome then (s.slot i).requestSince
        else none)
    ++ slotNumbers.filterMap fun i => (s.slot i).openPage.bind OpenPage.expired

/-- The Page Writer may take a piece of work that arose at `arose`: it is not stalled, and nothing
older is left of the work that a stall held up (R105, log entry 15). -/
def State.mayWork (s : State) (arose : Moment) : Bool :=
  !s.stalled && s.waitingWork.all fun w => !(w.held && w.arose < arose)

/-- The close of the open page `p` of slot `i` begins (R98); with a condition of R98 not met it has
to wait. -/
def State.beginClose (s : State) (i : Fin 32) (p : OpenPage) (flags : PageFlags)
    (requested : Bool) : State :=
  { s.setSlot i
      { s.slot i with
        openPage := none, requestSince := if requested then none else (s.slot i).requestSince,
        closingPage := some { page := p, flags := flags, requested := requested } } with
    pages.closeWaits := (s.slot i).pendingFired.isSome || !s.postRoom }

/-- The piece of work was waiting when a stall ended (R105). -/
def WorkItem.hold (w : WorkItem) : WorkItem := { w with held := true }

/-- The flush expiry of the page, if one waits, was waiting when a stall ended. -/
def OpenPage.holdWork (p : OpenPage) : OpenPage :=
  { p with expired := p.expired.map WorkItem.hold }

/-- The work of the slot that waits was waiting when a stall ended. -/
def Slot.holdWork (x : Slot) : Slot :=
  { x with requestSince := x.requestSince.map WorkItem.hold,
           openPage := x.openPage.map OpenPage.holdWork }

/-- The staged result was waiting when a stall ended. -/
def ScanResult.holdWork (r : ScanResult) : ScanResult := { r with work := r.work.hold }

/-- The close under way is taken: if it had to wait, its stall ends, and all the work that waits is
from now on taken oldest first (R105). -/
def State.endStall (s : State) : State :=
  if s.pages.closeWaits then
    { s.mapSlots Slot.holdWork with sched.staging := s.sched.staging.map ScanResult.holdWork }
  else s

/-- The latched record of a kind after one more occurrence with the given ident and time (R134): the
first occurrence creates it, a further one raises its count and brings the ident up to date. -/
def latchOccurrence (held : Option NoticeRecord) (code : NoticeCode) (ident : BitVec 32)
    (time : Timestamp) : NoticeRecord :=
  match held with
  | none => { code := code, count := 1, ident := ident, time := time }
  | some n => { n with count := sat16 (n.count + 1), ident := ident }

/-- A POOL_DRY occurrence is reported to the Notice Latch (R134). -/
def State.reportDry (s : State) : State :=
  { s with post.dryNotice := some (latchOccurrence s.post.dryNotice .poolDry 0 s.now) }

/-- A POOL_BAD occurrence is reported to the Notice Latch (R90, R134). -/
def State.reportBad (s : State) (ident : BitVec 32) : State :=
  { s with post.badNotice := some (latchOccurrence s.post.badNotice .poolBad ident s.now) }

/-- A drop starts or continues a pool-dry episode (R97). -/
def State.dryDrop (s : State) : State :=
  if s.pages.dry then (if s.post.dryNotice.isSome then s.reportDry else s)
  else { s with pages.dry := true }.reportDry

/-- The misses that a result of the given firing inherits (R95, R96). -/
def Slot.inherited (x : Slot) (firing : Byte) : Nat :=
  if x.carriedFiring == some firing then x.carriedMisses else 0

/-- The page `p` with one more record of `size` bytes (R95 items 3 and 4). -/
def OpenPage.addRecord (p : OpenPage) (size : Nat) (first : Timestamp) (flushing : Bool) :
    OpenPage :=
  if p.scans == 0 then
    { p with fill := p.fill + size, scans := 1, first := first,
             age := if flushing then some 0 else none }
  else { p with fill := p.fill + size, scans := p.scans + 1 }

/-- The page a descriptor becomes (R94): 16 bytes in use, no record. -/
def Descriptor.openPage (d : Descriptor) : OpenPage :=
  { descriptor := d, fill := 16, scans := 0, first := 0, age := none, expired := none }

/-- The oldest result, `r`, is stored in the page `p` of its slot, which is open or just opened
(R95). The address of the record, page address plus fill level, is added modulo 2^64: DESIGN CHOICE,
unsafe (log entry 28). -/
def State.storeResult (s : State) (r : ScanResult) (p : OpenPage) : State :=
  let x := s.slot r.slot
  let bytes := scanRecordBytes r.timestamp r.snapshot
    (sat16 (r.missedBefore + x.inherited r.firingIndex)) r.firingIndex r.values
  let page := p.addRecord (scanRecordSize r.values.length) r.timestamp
    (s.run.copy.flushInterval != 0)
  let y := { x with openPage := some page, carriedMisses := 0, inStaging := x.inStaging - 1,
                    stored := x.stored + 1, resolved := x.resolveOne r.firingIndex }
  (({ s.issueWrite .page (p.descriptor.address + BitVec.ofNat 64 p.fill) bytes with
      sched.staging := s.sched.staging.tail }).setSlot r.slot y).afterResolved r.slot

/-- The oldest result, `r`, is dropped for want of a page (R96). -/
def State.dropResult (s : State) (r : ScanResult) : State :=
  let x := s.slot r.slot
  let y := { x with carriedMisses := sat16 (x.inherited r.firingIndex + r.missedBefore),
                    carriedFiring := some r.firingIndex, inStaging := x.inStaging - 1,
                    dropped := x.dropped + 1, resolved := x.resolveOne r.firingIndex }
  (({ s with sched.staging := s.sched.staging.tail }).dryDrop.setSlot r.slot y).afterResolved r.slot

/-! ### Taking an order (R115, R116) -/

/-- A held order may be taken: RUNNING, HOLDING, and ORDER_TAIL not equal to the head (R115). -/
def State.mayTake (s : State) : Bool :=
  s.isRunning && s.fetch.state == .holding && s.window.orderTail != s.fetch.head

/-- The held order satisfies `p`. -/
def State.heldIs (s : State) (p : HeldOrder → Bool) : Bool := s.fetch.held.any p

/-- A valid order of the given kind. -/
def HeldOrder.isValid (kind : Byte) (h : HeldOrder) : Bool :=
  h.detail == 0 && h.image.kind == kind

/-- The number the order being taken receives (R116). -/
def State.nextOrderNumber (s : State) : BitVec 32 := s.run.orderNumber + 1

/-- Steps 1, 2 and 5 of taking: the head advances, the number is claimed, the held order is released
(R115). -/
def State.takeHeld (s : State) : State :=
  { s with
    fetch.head := (s.fetch.head + 1) % s.run.copy.orderSize.toNat
    fetch.held := none
    fetch.state := .idle
    run.orderNumber := s.nextOrderNumber }

/-- An ORDER_DONE record that the Order Fetch Unit posts (R126). -/
def fetchRecord (tag : BitVec 16) (number : BitVec 32) (status : Status) (detail : BitVec 4)
    (ended : Timestamp) : CompletionRecord :=
  .orderDone { status := status, tag := tag, orderNumber := number, detail := detail, firings := 0,
               pages := 0, ended := ended, stored := 0, missed := 0, dropped := 0 }

/-- The order held is taken and answered at once (R115, R126). -/
def State.takeAndAnswer (s : State) (h : HeldOrder) (status : Status) : State :=
  s.takeHeld.postRecord
    (fetchRecord h.image.tag s.nextOrderNumber status h.detail s.now)

/-- The order is admitted to slot `i` with its first state (R41, R43, R49). -/
def State.giveSlot (s : State) (i : Fin 32) (order : OrderCopy) (target : Option (Fin 32)) :
    State :=
  match order.kind with
  | .sample delay =>
    if delay == 0 then
      (s.setSlot i (Slot.holding order .delaying)).fire i .start s.now s.now
    else s.setSlot i { Slot.holding order .delaying with delayTimer := some 0 }
  | .arm a =>
    match target with
    | some j =>
      s.setSlot i { Slot.holding order .gated with
                    gateTarget := some j, armTimer := a.startTimer }
    | none =>
      (s.setSlot i { Slot.holding order (.watching .trueWait) with
                     armTimer := a.startTimer }).enterWatch i s.now

/-- The gate tag that must name a live slot: that of an ARM with GATED (R44). -/
def OrderImage.gate (o : OrderImage) : Option (BitVec 16) :=
  if o.kind == kindArm && o.gated then some o.gateTag else none

/-- The gate check of R44: absent for an order without a gate, and otherwise the target slot, if one
holds the gate tag and is not CLOSING. -/
def State.gateCheck (s : State) (o : OrderImage) : Option (Option (Fin 32)) :=
  match o.gate with
  | none => some none
  | some tag =>
    match s.holderOf tag with
    | none => none
    | some j => if (s.slot j).state == .closing then none else some (some j)

/-- The held ARM or SAMPLE is taken: tag check, gate check, admission to slot `i` (R118). -/
def State.takeForSlot (s : State) (h : HeldOrder) (i : Fin 32) : State :=
  if (s.holderOf h.image.tag).isSome then s.takeAndAnswer h .tagBusy
  else match s.gateCheck h.image with
    | none => s.takeAndAnswer h .gateLost
    | some target => s.takeHeld.giveSlot i (h.image.copy s.nextOrderNumber) target

/-- A valid order of kind `kind` that takes a slot can be taken (Table 6-5). -/
def State.maySlot (s : State) (kind : Byte) : Bool :=
  s.mayTake && s.heldIs (HeldOrder.isValid kind) && s.lowestFree.isSome && s.postRoom

/-- The held ARM or SAMPLE is taken with the lowest-numbered FREE slot. -/
def State.takeSlotOrder (s : State) : State :=
  match s.fetch.held, s.lowestFree with
  | some h, some i => s.takeForSlot h i
  | _, _ => s

/-! ### Fence (R121) -/

/-- A fence without an outcome takes one; its timer stops (R121). -/
def Fence.settle (f : Fence) (status : Status) (time : Timestamp) : Fence :=
  if f.outcome.isNone then { f with timer := none, outcome := some (status, time) } else f

/-- The fence, if any, takes an outcome now. -/
def State.settleFence (s : State) (status : Status) : State :=
  { s with fetch.fence := s.fetch.fence.map fun f => f.settle status s.now }

/-- The last occupied slot may have become FREE: the fence outcome is OK (R121). -/
def State.fenceIfEmpty (s : State) : State := if s.allFree then s.settleFence .ok else s

/-! ### Completion Ring (R128 to R132, R138) -/

/-- Records written and not yet released: tail less DONE_HEAD modulo the size (R128). -/
def State.unreleased (s : State) : Nat :=
  let size := s.run.copy.doneSize.toNat
  (s.post.tail + size - s.window.doneHead) % size

/-- A record may be written: fewer than size − 1 are unreleased (R128, R132). -/
def State.ringRoom (s : State) : Bool := s.unreleased + 1 < s.run.copy.doneSize.toNat

/-- DONE_READY is signalled: the counter is 0 and the timer stopped (R138). -/
def State.signalDone (s : State) : State :=
  { s with post.gathered := 0, post.timer := none }.setFlag .doneReady

/-- A record write raises the moderation counter (R138). -/
def State.moderate (s : State) : State :=
  let n := s.post.gathered + 1
  if s.run.copy.moderationDelay == 0 || n == s.run.copy.moderationCount.toNat then s.signalDone
  else
    { s with post.gathered := n,
             post.timer := if s.post.gathered == 0 then some 0 else s.post.timer }

/-- The tail advances, and the lap is inverted when it wraps to 0 (R128, R129). -/
def State.advanceTail (s : State) : State :=
  let next := (s.post.tail + 1) % s.run.copy.doneSize.toNat
  { s with post.tail := next, post.lap := if next == 0 then !s.post.lap else s.post.lap }

/-- The record is a NOTICE. -/
def CompletionRecord.isNotice : CompletionRecord → Bool
  | .notice _ => true
  | .orderDone _ | .fired _ | .page _ => false

/-- The address of entry `k` of the Completion Ring (R128), added modulo 2^64: DESIGN CHOICE, unsafe
(log entry 28). -/
def SetupCopy.doneEntry (c : SetupCopy) (k : Nat) : BitVec 64 :=
  c.doneBase + BitVec.ofNat 64 (32 * k)

/-- The address of entry `k` of the Order Ring (R109), added modulo 2^64: DESIGN CHOICE, unsafe (log
entry 28). -/
def SetupCopy.orderEntry (c : SetupCopy) (k : Nat) : BitVec 64 :=
  c.orderBase + BitVec.ofNat 64 (64 * k)

/-- The address of entry `k` of the Pool Ring (R88), added modulo 2^64: DESIGN CHOICE, unsafe (log
entry 28). -/
def SetupCopy.poolEntry (c : SetupCopy) (k : Nat) : BitVec 64 :=
  c.poolBase + BitVec.ofNat 64 (16 * k)

/-! ### Run state transitions -/

/-- The card enters STOPPED from STARTING: RUN is cleared and STOPPED is set (R145 to R147). -/
def State.endStart (s : State) (result : SetupResult) : State :=
  { s with run.runState := .stopped, run.setupResult := result, run.setupRead := none,
           window.run := false }.setFlag .stopped

/-- The slots, queues and counters of a run that has not begun: what entry to RUNNING and every
reset set alike (R87, R108, R125, R142, R148, R154). -/
def State.clearRun (s : State) : State :=
  { s with
    run.setupRead := none, run.timestamp := 0, run.epoch := 0, run.orderNumber := 0,
    run.fireNumber := 0, fetch := OrderFetch.reset, slots := freeSlots, sched := Scheduler.reset,
    pages := PageWriter.reset, post := Poster.reset, link.undelivered := [] }

/-- The card enters RUNNING with the copy `c` (R148, R12). -/
def State.enterRunning (s : State) (c : SetupCopy) : State :=
  let t := s.clearRun
  { t with run.runState := .running, run.copy := c, fetch.state := .idle,
           lines.latest := none }.retimeLines 0xFFFF fun i => c.debounce[i]

/-- The card enters FAULTED (R152): every block stops with its state kept inert, the word is frozen
(R13), fetching is OFF (R125), and a scan in conversion is abandoned (R86). -/
def State.enterFaulted (s : State) (code : FaultCode) : State :=
  { s.freezeLines with run.runState := .faulted, run.faultCode := code, fetch.state := .off,
                       sched.conversion := none }.setFlag .fault

/-- A bus error has its effect in STARTING, RUNNING and STOPPING alone (R151, R152). -/
def State.canFault (s : State) : Bool := s.run.runState == .starting || s.isLive

/-- What leaving FAULTED discards (R39, R86, R107, R125, R142): the order head, the pool head, the
completion tail and the lap keep their values (R153). -/
def State.discardRun (s : State) : State :=
  { s with
    run.setupRead := none,
    fetch := { OrderFetch.reset with head := s.fetch.head },
    slots := freeSlots, sched := Scheduler.reset,
    pages := { PageWriter.reset with poolHead := s.pages.poolHead },
    post := { Poster.reset with tail := s.post.tail, lap := s.post.lap },
    link.undelivered := [] }

/-- The card leaves FAULTED for STOPPED on RUN written 0 (R153). -/
def State.leaveFaulted (s : State) : State :=
  { s.discardRun with run.runState := .stopped, window.run := false }.resumeLines

/-- The values that every reset gives (R154): the blocks, the run state and the window. -/
def State.resetBlocks (s : State) : State :=
  { s.clearRun with
    run.runState := .stopped, run.faultCode := .none, run.setupResult := .ok,
    events := EventLogic.reset, window := Window.reset, lines.latest := none }

/-- A host reset (R154): the Line Monitor goes on, or resumes if it was frozen (R14). -/
def State.resetByHost (s : State) : State :=
  if s.run.runState == .faulted then s.resetBlocks.resumeLines else s.resetBlocks

/-- A power-on or link reset (R155): the Line Monitor starts afresh (R14), the copy is cleared, and
the configuration space takes its defaults. -/
def State.resetByPower (s : State) : State :=
  let t := s.resetBlocks
  let v := t.lines.lines.map fun l => { l.restart with level := false }
  { t with run.copy := SetupCopy.cleared, link.busMaster := false, link.msi := false,
           lines.lines := v }.commitLines (v.map Line.restart) false

/-! ### The start and the stop -/

/-- The Setup Record address (R145, R156). -/
def Window.setupAddress (w : Window) : BitVec 64 := w.setupHi ++ w.setupLo

/-- RUN 1 in STOPPED: STARTING, with the setup read issued, or the end of the start for a misaligned
address (R145). -/
def State.beginStart (s : State) : State :=
  let t := { s with run.runState := .starting, run.faultCode := .none, run.setupResult := .ok,
                    window.orderTail := 0, window.poolTail := 0, window.doneHead := 0,
                    window.run := true }
  if s.window.setupAddress.toNat % 64 != 0 then t.endStart .badAlignment
  else { t with run.setupRead := some (t.nextRead s.window.setupAddress) }.useTag

/-- Why slot `i` ends at the halt: HALTED, or GATE_LOST for a follower that takes the loss of its
gate first (R60, R48). An opening not yet taken comes before the loss (R45). -/
def Slot.haltReason (x : Slot) (lossFirst : Bool) : EndReason :=
  let opening := x.gateEvents.any fun e => match e with
    | .opening _ => true
    | .loss _ => false
  if lossFirst && x.state == .gated && !opening then .gateLost else .halted

/-- Slot `i` takes the halt (R60). -/
def State.haltSlot (lossFirst : BitVec 32) (s : State) (i : Fin 32) : State :=
  let x := s.slot i
  if x.occupied && x.state != .closing then
    s.closeSlot i (x.haltReason (lossFirst.getLsbD i)) s.now
  else s

/-- RUN 0 in RUNNING: a firing whose last record the Post Queue has accepted completes first (R61),
and every block takes the entry to STOPPING (R149, R124, R60). -/
def State.beginStop (s : State) (lossFirst : BitVec 32) : State :=
  let u := slotNumbers.foldl State.completeFiring s
  let t := { u with run.runState := .stopping, window.run := false, fetch.state := .off,
                    fetch.held := none }.settleFence .halted
  slotNumbers.foldl (State.haltSlot lossFirst) t

/-- A write of RUN 1 with RESET 0 (Table 8-9). -/
def State.writeRun1 (s : State) : State :=
  match s.run.runState with
  | .stopped => s.beginStart
  | .starting => { s with window.run := true }
  | .running | .faulted => s
  | .stopping => s.refuseWrite

/-- A write of RUN 0 with RESET 0 (Table 8-9). -/
def State.writeRun0 (s : State) (lossFirst : BitVec 32) : State :=
  match s.run.runState with
  | .stopped | .starting => { s with window.run := false }
  | .running => s.beginStop lossFirst
  | .stopping => s.refuseWrite
  | .faulted => s.leaveFaulted

/-! ### The register window (R156 to R159) -/

/-- A write to EVENTS clears every flag written with a 1 (R140). -/
def State.writeEvents (s : State) (value : BitVec 32) : State :=
  s.withEvents { s.events with flags := s.events.flags &&& ~~~(value.setWidth 5) }

/-- A write to EVENT_MASK replaces the enables (R141). -/
def State.writeEventMask (s : State) (value : BitVec 32) : State :=
  s.withEvents { s.events with mask := value.setWidth 5 }

/-- How a write of `value` to a host index register with a ring of `size` entries is judged
(Table 8-10): refused, accepted as the 0 it already is in STARTING, or within range. -/
inductive IndexVerdict where
  | refused | stays | inRange
  deriving DecidableEq, Repr

/-- The verdict of Table 8-10. -/
def State.judgeIndex (s : State) (value size : Nat) : IndexVerdict :=
  match s.run.runState with
  | .stopped | .faulted => .refused
  | .starting => if value == 0 then .stays else .refused
  | .running | .stopping => if value < size then .inRange else .refused

/-- ORDER_TAIL takes a value that may withdraw the entry at the head (R112). -/
def State.setOrderTail (s : State) (value : Nat) : State :=
  let t := { s with window.orderTail := value }
  if value == s.fetch.head then
    match s.fetch.state with
    | .reading =>
      { t with fetch.read := s.fetch.read.map fun r => { r with withdrawn := true } }
    | .holding => { t with fetch.held := none, fetch.state := .idle }
    | .off | .idle | .fenced => t
  else t

/-- A write to ORDER_TAIL (R158). -/
def State.writeOrderTail (s : State) (value : BitVec 32) : State :=
  match s.judgeIndex value.toNat s.run.copy.orderSize.toNat with
  | .refused => s.refuseWrite
  | .stays => { s with window.orderTail := 0 }
  | .inRange => s.setOrderTail value.toNat

/-- A write to POOL_TAIL (R158). -/
def State.writePoolTail (s : State) (value : BitVec 32) : State :=
  match s.judgeIndex value.toNat s.run.copy.poolSize.toNat with
  | .refused => s.refuseWrite
  | .stays => { s with window.poolTail := 0 }
  | .inRange => { s with window.poolTail := value.toNat }

/-- A new DONE_HEAD lies at most as far from the old one as the completion tail does (R130). -/
def State.releases (s : State) (value : Nat) : Bool :=
  (value + s.run.copy.doneSize.toNat - s.window.doneHead) % s.run.copy.doneSize.toNat
    ≤ s.unreleased

/-- A write to DONE_HEAD (R130, R158). -/
def State.writeDoneHead (s : State) (value : BitVec 32) : State :=
  match s.judgeIndex value.toNat s.run.copy.doneSize.toNat with
  | .refused => s.refuseWrite
  | .stays => { s with window.doneHead := 0 }
  | .inRange =>
    if s.releases value.toNat then { s with window.doneHead := value.toNat } else s.refuseWrite

/-- A write to CONTROL (R157). -/
def State.writeControl (s : State) (value : BitVec 32) : State :=
  if value.getLsbD 1 then s.resetByHost
  else if value.getLsbD 0 then s.writeRun1
  else s.writeRun0 0

/-- The access is one aligned 32-bit access (R156). -/
def wellShaped (offset : BitVec 6) (width : AccessWidth) : Bool :=
  width == .bits32 && offset.toNat % 4 == 0

/-- A write of the window (R156). -/
def State.writeWindow (s : State) (offset : BitVec 6) (width : AccessWidth) (value : BitVec 32) :
    State :=
  if !wellShaped offset width then s.refuseWrite
  else if offset == offControl then s.writeControl value
  else if offset == offEvents then s.writeEvents value
  else if offset == offEventMask then s.writeEventMask value
  else if offset == offSetupLo then { s with window.setupLo := value }
  else if offset == offSetupHi then { s with window.setupHi := value }
  else if offset == offOrderTail then s.writeOrderTail value
  else if offset == offPoolTail then s.writePoolTail value
  else if offset == offDoneHead then s.writeDoneHead value
  else s.refuseWrite

/-- Codes of the run state in STATUS (Table 8-8). -/
def RunState.code : RunState → BitVec 32
  | .stopped => 0
  | .starting => 1
  | .running => 2
  | .stopping => 3
  | .faulted => 4

/-- Codes of the fault code in STATUS (Table 8-8). -/
def FaultCode.code : FaultCode → BitVec 32
  | .none => 0
  | .fetchError => 1
  | .poolError => 2
  | .pageError => 3
  | .postError => 4
  | .linkDown => 5

/-- Codes of the setup result in STATUS (Table 8-8). -/
def SetupResult.code : SetupResult → BitVec 32
  | .ok => 0
  | .readError => 1
  | .badAlignment => 2
  | .badRingSize => 3
  | .badPageSize => 4
  | .badModeration => 5
  | .badSettle => 6

/-- The contents of STATUS (R159). -/
def State.status (s : State) : BitVec 32 :=
  s.run.runState.code ||| (s.run.faultCode.code <<< 8) ||| (s.run.setupResult.code <<< 16)

/-- A read of the window (R156): it has no effect, so it is a function of the state and no command.
An access of another shape, or to an offset without a register, returns 0. -/
def State.readWindow (s : State) (offset : BitVec 6) (width : AccessWidth) : BitVec 32 :=
  if !wellShaped offset width then 0
  else if offset == offIdent then Config.ident
  else if offset == offControl then (if s.window.run then 1 else 0)
  else if offset == offStatus then s.status
  else if offset == offEvents then s.events.flags.setWidth 32
  else if offset == offEventMask then s.events.mask.setWidth 32
  else if offset == offSetupLo then s.window.setupLo
  else if offset == offSetupHi then s.window.setupHi
  else if offset == offOrderTail then BitVec.ofNat 32 s.window.orderTail
  else if offset == offPoolTail then BitVec.ofNat 32 s.window.poolTail
  else if offset == offDoneHead then BitVec.ofNat 32 s.window.doneHead
  else if offset == offOrderHead then BitVec.ofNat 32 s.fetch.head
  else if offset == offLineState then s.word.setWidth 32
  else 0

end Sys2Proof.Machine
end

