-- ==== Sys2Proof/Machine/Completions.lean ====
section
/-! DEFINITION. Chapter 7: the Notice Latch, the writing of records and moderation. -/

namespace Sys2Proof.Machine

/-- A latched notice can enter the Post Queue (R135). -/
def State.canTakeNotice (s : State) : Bool :=
  s.isLive && s.postRoom && (s.post.dryNotice.isSome || s.post.badNotice.isSome)

/-- The Post Queue takes the POOL_DRY record, and the POOL_BAD record only without one (R135). -/
def State.takeNotice (s : State) : State :=
  match s.post.dryNotice, s.post.badNotice with
  | some n, _ => { s with post.dryNotice := none }.postRecord (.notice n)
  | none, some n => { s with post.badNotice := none }.postRecord (.notice n)
  | none, none => s

/-- NOTICE_TAKEN (R135). -/
def execNoticeTaken (s : State) : Result := s.whenever s.canTakeNotice s.takeNotice

/-- A record can be written (R132). -/
def State.canWriteRecord (s : State) : Bool :=
  s.isLive && !s.post.queue.isEmpty && s.ringRoom

/-- The oldest record is written into the ring (R132). -/
def State.writeRecord (s : State) : State :=
  match s.post.queue with
  | [] => s
  | r :: rs =>
    let t := ({ s with post.queue := rs }.issueWrite .completion
      (s.run.copy.doneEntry s.post.tail) (r.bytes s.post.lap s.fetch.head)).advanceTail.moderate
    if r.isNotice then t.setFlag .notice else t

/-- RECORD_WRITE (R132, R129, R138, R140). -/
def execRecordWrite (s : State) : Result := s.whenever s.canWriteRecord s.writeRecord

/-- The moderation timer has reached the moderation delay (R138). -/
def State.canModerationExpire (s : State) : Bool :=
  s.isLive && timerReached s.post.timer s.run.copy.moderationDelay.toNat

/-- MODERATION_TIMER_EXPIRY (R138). -/
def execModerationTimerExpiry (s : State) : Result :=
  s.whenever s.canModerationExpire s.signalDone

end Sys2Proof.Machine
end

