-- ==== Sys2Proof/Machine/Converter.lean ====
section
/-! DEFINITION. Chapter 4: the grant, the Analog Front End and the scan result. -/

namespace Sys2Proof.Machine

/-- The three conditions of a grant (R72). -/
def State.canGrant (s : State) : Bool :=
  s.isLive && s.sched.conversion.isNone && s.sched.staging.length < Config.stagingSize
    && !s.sched.due.isEmpty

/-- The scan that starts for a Due Queue entry (R73). -/
def State.startScan (s : State) (d : DueEntry) : Conversion :=
  { slot := d.slot, firingIndex := d.firingIndex, timestamp := s.now, snapshot := s.word,
    entries := (s.slot d.slot).order.entries, values := [], sum := 0, made := 0,
    phase := .settling 0 }

/-- The head of the Due Queue is granted (R72, R73). -/
def State.grantHead (s : State) : State :=
  match s.sched.due with
  | [] => s
  | d :: ds =>
    { s with sched.due := ds, sched.conversion := some (s.startScan d) }.setSlot d.slot
      { s.slot d.slot with inConversion := true }

/-- GRANT (R72, R73). -/
def execGrant (s : State) : Result := s.whenever s.canGrant s.grantHead

/-- The entry under way (R77). -/
def Conversion.current (c : Conversion) : ScanEntry :=
  (c.entries[c.values.length]?).getD { channel := 0, averaging := 1 }

/-- The settle time of the channel of the entry under way (R76, R77). -/
def State.settleTime (s : State) (c : Conversion) : Nat :=
  (s.run.copy.channels[c.current.channel]).settle.toNat

/-- The scan in conversion, when its entry has settled (R77). -/
def State.settledScan (s : State) : Option Conversion :=
  if s.isLive then
    s.sched.conversion.filter fun c =>
      match c.phase with
      | .settling t => s.settleTime c ≤ t
      | .converting _ => false
  else none

/-- ENTRY_SETTLED (R77): the conversions of the entry begin. -/
def execEntrySettled (s : State) : Result :=
  match s.settledScan with
  | none => .next s
  | some c => .next { s with sched.conversion := some { c with phase := .converting 0 } }

/-- The scan in conversion, when a conversion of it has taken its 2 microseconds (R77). -/
def State.convertedScan (s : State) : Option Conversion :=
  if s.isLive then
    s.sched.conversion.filter fun c =>
      match c.phase with
      | .settling _ => false
      | .converting t => Config.conversionTime ≤ t
  else none

/-- The value of an entry: the sum divided by the averaging count, rounded down (R79). -/
def entryValue (sum averaging : Nat) : BitVec 14 := BitVec.ofNat 14 (sum / averaging)

/-- The scan in conversion with one more code: the next conversion of the entry, or the next entry
with its value formed (R77, R79). -/
def Conversion.addCode (c : Conversion) (code : BitVec 14) : Conversion :=
  if c.made + 1 < c.current.averaging.toNat then
    { c with sum := c.sum + code.toNat, made := c.made + 1, phase := .converting 0 }
  else
    { c with values := c.values ++ [entryValue (c.sum + code.toNat) c.current.averaging.toNat],
             sum := 0, made := 0, phase := .settling 0 }

/-- Every entry of the scan has its value (R77). -/
def Conversion.finished (c : Conversion) : Bool := c.entries.length ≤ c.values.length

/-- The result of a scan that ends (R81). Its missed before is the missed run as it stands (R82), with
a scan that R56 counted missed at the closing, as R85 says and the end of R81 does not: DESIGN CHOICE,
unsafe (log entry 31). -/
def State.scanResult (s : State) (c : Conversion) : ScanResult :=
  { slot := c.slot, firingIndex := c.firingIndex, timestamp := c.timestamp, snapshot := c.snapshot,
    missedBefore := (s.slot c.slot).missedRun, values := c.values, work := .fresh s.moment }

/-- The scan `c` ends: its result enters the Staging Buffer and the converter is idle (R82). -/
def State.endScan (s : State) (c : Conversion) : State :=
  { s with sched.conversion := none,
           sched.staging := s.sched.staging ++ [s.scanResult c] }.setSlot c.slot
    { s.slot c.slot with inConversion := false, inStaging := (s.slot c.slot).inStaging + 1,
                         missedRun := 0 }

/-- CONVERSION_DONE (R78, R79, R82). -/
def execConversionDone (nanovolts : Int) (s : State) : Result :=
  match s.convertedScan with
  | none => .next s
  | some c =>
    let d := c.addCode (conversionCode nanovolts)
    .next (if d.finished then s.endScan d else { s with sched.conversion := some d })

end Sys2Proof.Machine
end

