-- ==== Sys2Proof/Machine/Firing.lean ====
section
/-! DEFINITION. Chapters 2, 3 and 4: the records of a slot, the completion of its firings, its end,
and its interval timer. -/

namespace Sys2Proof.Machine

/-- The pending FIRED record of slot `i` can enter the Post Queue (R35, R131). -/
def State.canTakeFired (s : State) (i : Fin 32) : Bool :=
  s.isLive && s.postRoom && (s.slot i).pendingFired.isSome

/-- The Post Queue takes the pending FIRED record of slot `i`; a slot that then asks without a page
has its condition met at once (R54, R57). -/
def State.takeFired (s : State) (i : Fin 32) : State :=
  match (s.slot i).pendingFired with
  | none => s
  | some r =>
    ((s.postRecord (.fired r)).setSlot i
      { s.slot i with pendingFired := none }.pageSettled).noteRequest i

/-- FIRED_RECORD_TAKEN (R35). -/
def execFiredRecordTaken (i : Fin 32) (s : State) : Result :=
  s.whenever (s.canTakeFired i) (s.takeFired i)

/-- The last firing of an order that ended OK completes within CLOSING (R54, R57 step 4). -/
def State.canComplete (s : State) (i : Fin 32) : Bool :=
  s.isLive && (s.slot i).state == .closing && (s.slot i).endReason == some .ok
    && (s.slot i).handOn == .pageDone && (s.slot i).pendingFired.isNone

/-- FIRING_COMPLETION (R54). -/
def execFiringCompletion (i : Fin 32) (s : State) : Result :=
  if s.canReturn i then .next (s.returnToWatch i)
  else s.whenever (s.canComplete i)
    (s.setSlot i { s.slot i with firings := (s.slot i).firings + 1, handOn := .completed })

/-- The status of an end reason (Table 3-7). -/
def EndReason.status : EndReason → Status
  | .ok => .ok
  | .cancelled => .cancelled
  | .halted => .halted
  | .timedOut => .timedOut
  | .gateLost => .gateLost

/-- The hand-on of a CLOSING slot has reached its fifth step (R57): an order that ended OK has
completed its last firing, any other has its page done. -/
def Slot.handedOn (x : Slot) : Bool :=
  x.state == .closing && !x.inConversion && x.inStaging == 0 && x.pendingFired.isNone
    && x.openPage.isNone && x.closingPage.isNone
    && (if x.endReason == some .ok then x.handOn == .completed else x.handOn == .pageDone)

/-- The ORDER_DONE record of slot `i` can enter the Post Queue (R57, R58). -/
def State.canTakeOrderDone (s : State) (i : Fin 32) : Bool :=
  s.isLive && s.postRoom && (s.slot i).handedOn && !s.hasFollower i

/-- The ORDER_DONE record of a slot (R58). -/
def Slot.orderDone (x : Slot) : OrderDoneRecord :=
  { status := (x.endReason.getD .ok).status, tag := x.order.tag, orderNumber := x.order.number,
    detail := 0, firings := BitVec.ofNat 16 x.firings, pages := x.pagesPosted,
    ended := x.endTime.getD 0, stored := x.stored, missed := x.missed, dropped := x.dropped }

/-- ORDER_DONE_TAKEN (R58): the record enters the Post Queue and the slot becomes FREE, which may
settle a fence (R121). -/
def execOrderDoneTaken (i : Fin 32) (s : State) : Result :=
  s.whenever (s.canTakeOrderDone i)
    ((s.postRecord (.orderDone (s.slot i).orderDone)).setSlot i Slot.free).fenceIfEmpty

/-- The interval timer of slot `i` has expired (R64). -/
def State.canIntervalExpire (s : State) (i : Fin 32) : Bool :=
  s.isRunning && (s.slot i).state == .running && (s.slot i).intervalTime != 0
    && timerReached (s.slot i).intervalTimer (s.slot i).intervalTime

/-- The next due time advances by the interval and the timer restarts from 0 (R64). -/
def Slot.nextGridPoint (x : Slot) : Slot :=
  { x with intervalTimer := some 0, nextDue := x.nextDue.map fun m => m + x.intervalTime }

/-- INTERVAL_TIMER_EXPIRY (R64, R67). -/
def execIntervalTimerExpiry (i : Fin 32) (s : State) : Result :=
  s.whenever (s.canIntervalExpire i) ((s.setSlot i (s.slot i).nextGridPoint).scanDue i)

end Sys2Proof.Machine
end

