-- ==== Sys2Proof/Machine/Lines.lean ====
section
/-! DEFINITION. Chapter 1: the events of the input lines. -/

namespace Sys2Proof.Machine

/-- RAW_LEVEL_CHANGE (R1, R2, R3, R5): the new raw level is the input stage's output in every run
state; in FAULTED the Line Monitor does not act on it (R13). A level equal to the present one is no
change. -/
def execRawLevelChange (line : Fin 16) (level sameMoment : Bool) (s : State) : Result :=
  let l := s.lines.lines[line]
  if l.raw == level then .next s
  else if s.run.runState == .faulted then
    .next { s with lines.lines := s.lines.lines.set line { l with raw := level } }
  else .next (s.commitLines (s.lines.lines.set line (l.rawChange level)) sameMoment)

/-- The qualification of a line can succeed: it is not FAULTED and the timer has expired with the
raw level departed (R4, R13). -/
def State.canQualify (s : State) (line : Fin 16) : Bool :=
  s.run.runState != .faulted && s.lines.lines[line].qualified

/-- QUALIFICATION_TIMER_EXPIRY (R4). -/
def execQualificationTimerExpiry (line : Fin 16) (sameMoment : Bool) (s : State) : Result :=
  s.whenever (s.canQualify line)
    (s.commitLines (s.lines.lines.set line s.lines.lines[line].qualify) sameMoment)

end Sys2Proof.Machine
end

