-- ==== Sys2Proof/Machine/Orders.lean ====
section
/-! DEFINITION. Chapter 6: fetching, validating and taking orders. -/

namespace Sys2Proof.Machine

/-- The conditions of an order read (R111, R116). -/
def State.canReadOrder (s : State) : Bool :=
  s.isRunning && s.fetch.state == .idle && s.window.orderTail != s.fetch.head
    && s.run.orderNumber != 0xFFFFFFFF

/-- ORDER_READ_ISSUE (R111). -/
def execOrderReadIssue (s : State) : Result :=
  s.whenever s.canReadOrder
    { s with
      fetch.read := some { read := s.nextRead (s.run.copy.orderEntry s.fetch.head),
                           withdrawn := false },
      fetch.state := .reading }.useTag

/-- The order read is in flight and is answered with data under `tag`. -/
def State.orderAnswered (s : State) (tag : Nat) : Option OrderRead :=
  if s.isLive then s.fetch.read.filter fun r => r.read.answeredBy tag else none

/-- The data of an order read becomes the held order with its validation result (R111, R113). -/
def State.holdOrder (s : State) (image : OrderImage) : State :=
  { s with fetch.read := none, fetch.state := .holding,
           fetch.held := some { image := image, detail := validate s.run.copy.channels image } }

/-- ORDER_READ_DATA (R111): held and validated in READING; discarded when the entry was withdrawn
(R112) or the run is stopping (R124). -/
def execOrderReadData (tag : Nat) (data : BitVec 512) (s : State) : Result :=
  match s.orderAnswered tag with
  | none => .next s
  | some r =>
    if s.isRunning then
      .next (if r.withdrawn then { s with fetch.read := none, fetch.state := .idle }
             else s.holdOrder data)
    else .next { s with fetch.read := none }

/-- ARM (R118, R41 to R44). -/
def execArm (s : State) : Result := s.whenever (s.maySlot kindArm) s.takeSlotOrder

/-- SAMPLE (R118, R41 to R43, R49). -/
def execSample (s : State) : Result := s.whenever (s.maySlot kindSample) s.takeSlotOrder

/-- The held order, when it satisfies `p` and can be taken with room in the Post Queue
(Table 6-5). -/
def State.takeable (s : State) (p : HeldOrder → Bool) : Option HeldOrder :=
  if s.mayTake && s.postRoom then s.fetch.held.filter p else none

/-- The slot that a CANCEL of `tag` ends: the holder, unless it is CLOSING (R59). -/
def State.cancelTarget (s : State) (tag : BitVec 16) : Option (Fin 32) :=
  (s.holderOf tag).filter fun i => (s.slot i).state != .closing

/-- The held CANCEL is taken (R119, R59). A firing of the target whose last record the Post Queue has
accepted completes first (R61). -/
def State.takeCancel (s : State) (h : HeldOrder) : State :=
  match s.cancelTarget h.image.targetTag with
  | none => s.takeAndAnswer h .noTarget
  | some i => ((s.completeFiring i).takeAndAnswer h .ok).closeSlot i .cancelled s.now

/-- CANCEL (R119, R59). -/
def execCancel (s : State) : Result :=
  match s.takeable (HeldOrder.isValid kindCancel) with
  | none => .next s
  | some h => .next (s.takeCancel h)

/-- LINES (R120, R11). -/
def execLines (s : State) : Result :=
  match s.takeable (HeldOrder.isValid kindLines) with
  | none => .next s
  | some h =>
    .next ((s.takeAndAnswer h .ok).retimeLines h.image.lineMask fun _ => h.image.debounce)

/-- The fence that a FENCE becomes (R121). -/
def State.newFence (s : State) (h : HeldOrder) : Fence :=
  { tag := h.image.tag, orderNumber := s.nextOrderNumber, limit := h.image.fenceLimit,
    timer := if h.image.fenceLimit == 0 then none else some 0, outcome := none }

/-- The held FENCE is taken (R121). -/
def State.takeFence (s : State) (h : HeldOrder) : State :=
  { s.takeHeld with fetch.state := .fenced, fetch.fence := some (s.newFence h) }.fenceIfEmpty

/-- The held FENCE, when it can be taken: it needs no room (Table 6-5). -/
def State.takeableFence (s : State) : Option HeldOrder :=
  if s.mayTake then s.fetch.held.filter (HeldOrder.isValid kindFence) else none

/-- FENCE (R121). -/
def execFence (s : State) : Result :=
  match s.takeableFence with
  | none => .next s
  | some h => .next (s.takeFence h)

/-- BAD_ORDER (R117): an invalid order is taken and answered with its detail code. -/
def execBadOrder (s : State) : Result :=
  match s.takeable (fun h => h.detail != 0) with
  | none => .next s
  | some h => .next (s.takeAndAnswer h .badOrder)

/-- The limit timer of a fence without an outcome has expired (R121). -/
def Fence.expired (f : Fence) : Bool :=
  f.outcome.isNone && timerReached f.timer (f.limit.toNat * Config.perMilli)

/-- FENCE_LIMIT_EXPIRY (R121). -/
def execFenceLimitExpiry (s : State) : Result :=
  s.whenever (s.isLive && s.fetch.fence.any Fence.expired) (s.settleFence .timedOut)

/-- The ORDER_DONE record of a fence, once its outcome is set (R121, R126). -/
def Fence.record (f : Fence) : Option CompletionRecord :=
  f.outcome.map fun o => fetchRecord f.tag f.orderNumber o.1 0 o.2

/-- The fence record that can enter the Post Queue. -/
def State.fenceRecord (s : State) : Option CompletionRecord :=
  if s.isLive && s.postRoom then s.fetch.fence.bind Fence.record else none

/-- FENCE_DONE_TAKEN (R121): fetching resumes in RUNNING. -/
def execFenceDoneTaken (s : State) : Result :=
  match s.fenceRecord with
  | none => .next s
  | some r =>
    .next { s.postRecord r with
            fetch.fence := none,
            fetch.state := if s.isRunning then .idle else s.fetch.state }

end Sys2Proof.Machine
end

