-- ==== Sys2Proof/Machine/Pages.lean ====
section
/-! DEFINITION. Chapter 5: the Pool Ring, the Buffer Cache and the sample pages. -/

namespace Sys2Proof.Machine

/-- The three conditions of a descriptor read (R89). -/
def State.canReadPool (s : State) : Bool :=
  s.isRunning && s.pages.poolRead.isNone && s.pages.cache.length < Config.cacheSize
    && s.pages.poolHead != s.window.poolTail

/-- POOL_READ_ISSUE (R89). -/
def execPoolReadIssue (s : State) : Result :=
  s.whenever s.canReadPool
    { s with
      pages.poolRead := some (s.nextRead (s.run.copy.poolEntry s.pages.poolHead)) }.useTag

/-- The pool read is answered: the pool head advances (R88, R89). -/
def State.poolAnswered (s : State) : State :=
  { s with pages.poolRead := none,
           pages.poolHead := (s.pages.poolHead + 1) % s.run.copy.poolSize.toNat }

/-- The descriptor joins the cache, and a pool-dry episode ends (R90, R97). -/
def State.cacheDescriptor (s : State) (d : Descriptor) : State :=
  { s with pages.cache := s.pages.cache ++ [d], pages.dry := false }

/-- POOL_READ_DATA (R89, R90). -/
def execPoolReadData (tag : Nat) (data : BitVec 128) (s : State) : Result :=
  let d := Descriptor.ofRecord data
  s.whenever (s.isLive && s.pages.poolRead.any fun r => r.answeredBy tag)
    (if d.bad then s.poolAnswered.reportBad d.ident else s.poolAnswered.cacheDescriptor d)

/-- The record of result `r` fits in the page `p` (R94). -/
def State.fits (s : State) (p : OpenPage) (r : ScanResult) : Bool :=
  p.fill + scanRecordSize r.values.length ≤ s.run.copy.pageSize.toNat

/-- The oldest result, when the Page Writer may take it (R94, R105). -/
def State.nextResult (s : State) : Option ScanResult :=
  if s.isLive then s.sched.staging.head?.filter fun r => s.mayWork r.work.arose else none

/-- A place is found for the result `r` by Table 5-3 (R94). -/
def State.placeResult (s : State) (r : ScanResult) : State :=
  match (s.slot r.slot).openPage, s.pages.cache with
  | some p, _ =>
    if s.fits p r then s.storeResult r p else s.beginClose r.slot p PageFlags.none false
  | none, d :: ds => { s with pages.cache := ds }.storeResult r d.openPage
  | none, [] => s.dropResult r

/-- RESULT_TAKEN (R94, R95, R96, R100). -/
def execResultTaken (s : State) : Result :=
  match s.nextResult with
  | none => .next s
  | some r => .next (s.placeResult r)

/-- The close request of slot `i` finds no page to close (R101). -/
def State.canSkipClose (s : State) (i : Fin 32) : Bool :=
  s.isLive && (s.slot i).wantsClose && (s.slot i).openPage.isNone && (s.slot i).closingPage.isNone

/-- The moment at which the request of slot `i` arose (R105). -/
def State.requestArose (s : State) (i : Fin 32) : Moment :=
  ((s.slot i).requestSince.map WorkItem.arose).getD s.moment

/-- The page whose close slot `i` asks for, when the Page Writer may begin it (R101, R105). -/
def State.requestedPage (s : State) (i : Fin 32) : Option OpenPage :=
  if s.isLive && (s.slot i).wantsClose && s.mayWork (s.requestArose i) then
    (s.slot i).openPage
  else none

/-- PAGE_CLOSE_REQUEST (R101). -/
def execPageCloseRequest (i : Fin 32) (s : State) : Result :=
  match s.requestedPage i with
  | some p => .next (s.beginClose i p (s.slot i).closeFlags true)
  | none => s.whenever (s.canSkipClose i) (s.setSlot i (s.slot i).pageSettled)

/-- The page of slot `i` whose age timer has expired, when the Page Writer may take the expiry (R102,
R105). -/
def State.expiredPage (s : State) (i : Fin 32) : Option OpenPage :=
  if s.isLive then
    (s.slot i).openPage.filter fun p => p.expired.any fun w => s.mayWork w.arose
  else none

/-- FLUSH_EXPIRY (R102): the close begins with the flag FLUSHED. -/
def execFlushExpiry (i : Fin 32) (s : State) : Result :=
  match s.expiredPage i with
  | none => .next s
  | some p => .next (s.beginClose i p { PageFlags.none with flushed := true } false)

/-- The page of slot `i` whose close step can be taken (R98). -/
def State.closablePage (s : State) (i : Fin 32) : Option ClosingPage :=
  if s.isLive && s.postRoom && (s.slot i).pendingFired.isNone then (s.slot i).closingPage else none

/-- The PAGE record of a closed page (R99). -/
def Slot.pageRecord (x : Slot) (c : ClosingPage) : PageRecord :=
  { tag := x.order.tag, orderNumber := x.order.number, ident := c.page.descriptor.ident,
    bytesUsed := BitVec.ofNat 32 c.page.fill, sequence := x.pageSequence,
    scans := BitVec.ofNat 16 c.page.scans, flags := c.flags }

/-- The slot after the close step (R98 items 3 and 4): a requested close meets the slot's condition
(R101), and a slot that asks after any other close has no page left. -/
def Slot.pageClosed (x : Slot) (c : ClosingPage) : Slot :=
  { x with closingPage := none, pageSequence := x.pageSequence + 1,
           pagesPosted := x.pagesPosted + 1,
           handOn := if c.requested then .pageDone else x.handOn }.pageSettled

/-- The close step of R98: the header is written and the PAGE record enters the Post Queue; a close
that waited ends a stall (R105). -/
def State.closePage (s : State) (i : Fin 32) (c : ClosingPage) : State :=
  let t := s.endStall
  let x := t.slot i
  let header := pageHeaderBytes x.order.tag x.pageSequence (BitVec.ofNat 16 c.page.scans) c.flags
    c.page.first
  ((t.issueWrite .page c.page.descriptor.address header).postRecord
    (.page (x.pageRecord c))).setSlot i (x.pageClosed c)

/-- PAGE_CLOSE (R98, R99). -/
def execPageClose (i : Fin 32) (s : State) : Result :=
  match s.closablePage i with
  | none => .next s
  | some c => .next (s.closePage i c)

/-- A cached descriptor can be returned UNUSED (R106). -/
def State.canReturnUnused (s : State) : Bool :=
  s.run.runState == .stopping && s.allFree && s.pages.poolRead.isNone && s.postRoom

/-- The PAGE record of an UNUSED return (R106, R161). -/
def Descriptor.unusedRecord (d : Descriptor) : PageRecord :=
  { tag := 0, orderNumber := 0, ident := d.ident, bytesUsed := 0, sequence := 0, scans := 0,
    flags := { PageFlags.none with unused := true } }

/-- UNUSED_RETURN (R106): oldest first. -/
def execUnusedReturn (s : State) : Result :=
  match s.pages.cache with
  | [] => .next s
  | d :: ds =>
    s.whenever s.canReturnUnused
      ({ s with pages.cache := ds }.postRecord (.page d.unusedRecord))

end Sys2Proof.Machine
end

