-- ==== Sys2Proof/Machine/RunControl.lean ====
section
/-! DEFINITION. Chapter 8: run control, the register window, bus errors and resets. -/

namespace Sys2Proof.Machine

/-- RUN_WRITTEN_1 (R145, R157). -/
def execRunWritten1 (s : State) : Result := .next s.writeRun1

/-- RUN_WRITTEN_0 (R147, R149, R153, R157). -/
def execRunWritten0 (lossFirst : BitVec 32) (s : State) : Result := .next (s.writeRun0 lossFirst)

/-- HOST_RESET (R154). -/
def execHostReset (s : State) : Result := .next s.resetByHost

/-- EVENTS_WRITE (R140, R156). -/
def execEventsWrite (width : AccessWidth) (value : BitVec 32) (s : State) : Result :=
  .next (s.writeWindow offEvents width value)

/-- EVENT_MASK_WRITE (R141, R156). -/
def execEventMaskWrite (width : AccessWidth) (value : BitVec 32) (s : State) : Result :=
  .next (s.writeWindow offEventMask width value)

/-- ORDER_TAIL_WRITE (R112, R158). -/
def execOrderTailWrite (value : BitVec 32) (s : State) : Result := .next (s.writeOrderTail value)

/-- POOL_TAIL_WRITE (R158). -/
def execPoolTailWrite (value : BitVec 32) (s : State) : Result := .next (s.writePoolTail value)

/-- DONE_HEAD_WRITE (R130, R158). -/
def execDoneHeadWrite (value : BitVec 32) (s : State) : Result := .next (s.writeDoneHead value)

/-- REGISTER_WRITE (R156). A write that has a row of its own acts as that row (log entry 16). -/
def execRegisterWrite (offset : BitVec 6) (width : AccessWidth) (value : BitVec 32) (s : State) :
    Result :=
  .next (s.writeWindow offset width value)

/-- The setup read of a start is in flight and satisfies `p`. -/
def State.setupReading (s : State) (p : BusRead → Bool) : Bool :=
  s.run.runState == .starting && s.run.setupRead.any p

/-- The setup read returns its data (R146, R147): the start is abandoned with RUN 0, ends with the
first failed check, or enters RUNNING. -/
def State.setupData (s : State) (c : SetupCopy) : State :=
  if !s.window.run then s.endStart s.run.setupResult
  else if c.check == .ok then s.enterRunning c
  else s.endStart c.check

/-- SETUP_READ_DATA (R146, R147, R148). -/
def execSetupReadData (tag : Nat) (data : BitVec 1024) (s : State) : Result :=
  s.whenever (s.setupReading fun r => r.answeredBy tag) (s.setupData (SetupCopy.ofRecord data))

/-- SETUP_READ_ERROR (R146, R147). -/
def execSetupReadError (tag : Nat) (s : State) : Result :=
  s.whenever (s.setupReading fun r => r.tag == tag) (s.endStart .readError)

/-- The five conditions under which the card leaves STOPPING (R150). -/
def State.drained (s : State) : Bool :=
  s.fetch.read.isNone && s.fetch.fence.isNone && s.allFree
    && s.sched.conversion.isNone && s.sched.staging.isEmpty
    && s.pages.poolRead.isNone && s.pages.cache.isEmpty
    && s.post.queue.isEmpty && s.post.dryNotice.isNone && s.post.badNotice.isNone

/-- STOP_COMPLETE can be taken (R150). -/
def State.canStop (s : State) : Bool := s.run.runState == .stopping && s.drained

/-- The last gathering is signalled at the entry to STOPPED (R139). -/
def State.flushModeration (s : State) : State :=
  if s.post.gathered == 0 then { s with post.timer := none } else s.signalDone

/-- STOP_COMPLETE (R150, R139, R140). A report of a write not delivered that has not been acted on has
no effect in STOPPED (R151). -/
def execStopComplete (s : State) : Result :=
  s.whenever s.canStop
    ({ s with run.runState := .stopped, link.undelivered := [] }.flushModeration.setFlag .stopped)

/-- The order read in flight satisfies `p`. -/
def State.orderReading (s : State) (p : BusRead → Bool) : Bool :=
  s.isLive && s.fetch.read.any fun r => p r.read

/-- The pool read in flight satisfies `p`. -/
def State.poolReading (s : State) (p : BusRead → Bool) : Bool :=
  s.isLive && s.pages.poolRead.any p

/-- FETCH_ERROR (R111, R124, R151). -/
def execFetchError (tag : Nat) (s : State) : Result :=
  s.whenever (s.orderReading fun r => r.tag == tag) (s.enterFaulted .fetchError)

/-- POOL_ERROR (R89, R151). -/
def execPoolError (tag : Nat) (s : State) : Result :=
  s.whenever (s.poolReading fun r => r.tag == tag) (s.enterFaulted .poolError)

/-- PAGE_ERROR (R107, R151, log entry 17). -/
def execPageError (s : State) : Result := s.whenever s.canFault (s.enterFaulted .pageError)

/-- POST_ERROR (R132, R151, log entry 17). -/
def execPostError (s : State) : Result := s.whenever s.canFault (s.enterFaulted .postError)

/-- COMPLETION_TIMEOUT (R151): as the error response of the read that `tag` names. -/
def execCompletionTimeout (tag : Nat) (s : State) : Result :=
  if s.setupReading fun r => r.timedOut tag then .next (s.endStart .readError)
  else if s.orderReading fun r => r.timedOut tag then .next (s.enterFaulted .fetchError)
  else s.whenever (s.poolReading fun r => r.timedOut tag) (s.enterFaulted .poolError)

/-- LINK_DOWN (R147, R151): no effect on the run state in STOPPED and FAULTED. -/
def execLinkDown (s : State) : Result := s.whenever s.canFault (s.enterFaulted .linkDown)

/-- POWER_ON_RESET (R155, R14). -/
def execPowerOnReset (s : State) : Result := .next s.resetByPower

/-- LINK_RESET (R155, R14). -/
def execLinkReset (s : State) : Result := .next s.resetByPower

/-- CONFIGURATION_SPACE_WRITE (R141, R151). -/
def execConfigurationSpaceWrite (busMaster msi : Bool) (s : State) : Result :=
  .next { s with link.busMaster := busMaster, link.msi := msi }

end Sys2Proof.Machine
end

