-- ==== Sys2Proof/Machine/Watch.lean ====
section
/-! DEFINITION. Chapters 2 and 3: the events of one slot in its watch, at its gate and in its start
delay. Each is taken in RUNNING alone (R38). -/

namespace Sys2Proof.Machine

/-- Slot `i` has a line event to take (R8). -/
def State.canTakeLineEvent (s : State) (i : Fin 32) : Bool :=
  s.isRunning && (s.slot i).isWatching && !(s.slot i).offered.isEmpty

/-- An ARM slot in substate `w` judges its condition on the word of the event `e` it takes (R20, R21,
R22). -/
def State.judgeLineEvent (s : State) (i : Fin 32) (a : ArmOrder) (w : WatchState) (e : LineEvent) :
    State :=
  match w, a.pattern.holds e.word with
  | .clearWait, true | .hold, true => s
  | .clearWait, false | .trueWait, false | .hold, false =>
    s.setSlot i ((s.slot i).waitIn .trueWait)
  | .trueWait, true => s.conditionTrue i a e.time

/-- Slot `i` takes its oldest offered line event. -/
def State.takeLineEvent (s : State) (i : Fin 32) : State :=
  let x := s.slot i
  let t := s.setSlot i { x with offered := x.offered.tail }
  match x.order.kind, x.state, x.offered.head? with
  | .arm a, .watching w, some e => t.judgeLineEvent i a w e
  | _, _, _ => t

/-- LINE_EVENT_TAKEN (R8, R20, R21, R22). -/
def execLineEventTaken (i : Fin 32) (s : State) : Result :=
  s.whenever (s.canTakeLineEvent i) (s.takeLineEvent i)

/-- The hold time of the slot's order in microseconds; a SAMPLE has none. -/
def Slot.holdTime (x : Slot) : Nat :=
  match x.order.kind with
  | .arm a => a.holdTime.toNat
  | .sample _ => 0

/-- The hold timer of slot `i` has expired (R23). -/
def State.canHoldExpire (s : State) (i : Fin 32) : Bool :=
  s.isRunning && (s.slot i).state == .watching .hold
    && timerReached (s.slot i).holdTimer (s.slot i).holdTime

/-- HOLD_EXPIRY (R23): a fire with cause PATTERN whose onset is the entry to HOLD. -/
def execHoldExpiry (i : Fin 32) (s : State) : Result :=
  s.whenever (s.canHoldExpire i)
    (s.fire i .pattern ((s.slot i).onset.getD s.now) s.now)

/-- The arm timeout of the slot's order in microseconds; a SAMPLE has none. -/
def Slot.armLimit (x : Slot) : Nat :=
  match x.order.kind with
  | .arm a => a.armTimeout.toNat * Config.perMilli
  | .sample _ => 0

/-- The order's flag FIRE_ON_TIMEOUT; a SAMPLE has none. -/
def Slot.fireOnTimeout (x : Slot) : Bool :=
  match x.order.kind with
  | .arm a => a.fireOnTimeout
  | .sample _ => false

/-- The arm timer of slot `i` has expired in WATCHING or GATED (R24 to R26). -/
def State.canArmExpire (s : State) (i : Fin 32) : Bool :=
  s.isRunning && ((s.slot i).isWatching || (s.slot i).state == .gated)
    && timerReached (s.slot i).armTimer (s.slot i).armLimit

/-- ARM_EXPIRY (R25, R26): a fire with cause TIMEOUT, or the end TIMED_OUT. -/
def execArmExpiry (i : Fin 32) (s : State) : Result :=
  s.whenever (s.canArmExpire i)
    (if (s.slot i).fireOnTimeout then s.fire i .timeout s.now s.now
     else s.closeSlot i .timedOut s.now)

/-- The start delay of the slot's order in microseconds; an ARM has none. -/
def Slot.startDelay (x : Slot) : Nat :=
  match x.order.kind with
  | .arm _ => 0
  | .sample d => d.toNat

/-- The delay timer of slot `i` has expired (R49). -/
def State.canDelayExpire (s : State) (i : Fin 32) : Bool :=
  s.isRunning && (s.slot i).state == .delaying
    && timerReached (s.slot i).delayTimer (s.slot i).startDelay

/-- DELAY_EXPIRY (R49): a fire with cause START. -/
def execDelayExpiry (i : Fin 32) (s : State) : Result :=
  s.whenever (s.canDelayExpire i) (s.fire i .start s.now s.now)

/-- The event of its gate that a slot in GATED takes next (R45). -/
def Slot.nextGateEvent (x : Slot) : Option GateEvent :=
  if x.state == .gated then x.gateEvents.head? else none

/-- The moment of the gate opening that a slot takes next (R46). -/
def Slot.openingTime (x : Slot) : Option Timestamp :=
  match x.nextGateEvent with
  | some (.opening t) => some t
  | some (.loss _) | none => none

/-- The moment of the gate loss that a slot takes next (R47). -/
def Slot.lossTime (x : Slot) : Option Timestamp :=
  match x.nextGateEvent with
  | some (.loss t) => some t
  | some (.opening _) | none => none

/-- GATE_OPENING (R46): the follower's link is removed and it enters the watch at its target's fire
time. -/
def execGateOpening (i : Fin 32) (s : State) : Result :=
  s.whenever (s.isRunning && (s.slot i).openingTime.isSome)
    (s.enterWatch i ((s.slot i).openingTime.getD s.now))

/-- GATE_LOSS (R47): the follower ends GATE_LOST at its target's entry to CLOSING. -/
def execGateLoss (i : Fin 32) (s : State) : Result :=
  s.whenever (s.isRunning && (s.slot i).lossTime.isSome)
    (s.closeSlot i .gateLost ((s.slot i).lossTime.getD s.now))

end Sys2Proof.Machine
end

