-- ==== Sys2Proof/Machine/Dispatch.lean ====
section
/-! DEFINITION. The dispatch: one arm per command of spec/opcode_table.json. -/

namespace Sys2Proof.Machine

/-- The effect of a command on everything but the queue. -/
def exec (c : Instr) (s : State) : Host.Outcome State Fault Refusal :=
  match c with
  | .rawLevelChange l level sameMoment => Sys2Proof.Machine.execRawLevelChange l level sameMoment s
  | .qualificationTimerExpiry l sameMoment => Sys2Proof.Machine.execQualificationTimerExpiry l sameMoment s
  | .lineEventTaken i => Sys2Proof.Machine.execLineEventTaken i s
  | .holdExpiry i => Sys2Proof.Machine.execHoldExpiry i s
  | .armExpiry i => Sys2Proof.Machine.execArmExpiry i s
  | .delayExpiry i => Sys2Proof.Machine.execDelayExpiry i s
  | .gateOpening i => Sys2Proof.Machine.execGateOpening i s
  | .gateLoss i => Sys2Proof.Machine.execGateLoss i s
  | .firedRecordTaken i => Sys2Proof.Machine.execFiredRecordTaken i s
  | .firingCompletion i => Sys2Proof.Machine.execFiringCompletion i s
  | .orderDoneTaken i => Sys2Proof.Machine.execOrderDoneTaken i s
  | .intervalTimerExpiry i => Sys2Proof.Machine.execIntervalTimerExpiry i s
  | .grant => Sys2Proof.Machine.execGrant s
  | .entrySettled => Sys2Proof.Machine.execEntrySettled s
  | .conversionDone nanovolts => Sys2Proof.Machine.execConversionDone nanovolts s
  | .poolReadIssue => Sys2Proof.Machine.execPoolReadIssue s
  | .poolReadData tag data => Sys2Proof.Machine.execPoolReadData tag data s
  | .resultTaken => Sys2Proof.Machine.execResultTaken s
  | .pageCloseRequest i => Sys2Proof.Machine.execPageCloseRequest i s
  | .flushExpiry i => Sys2Proof.Machine.execFlushExpiry i s
  | .pageClose i => Sys2Proof.Machine.execPageClose i s
  | .unusedReturn => Sys2Proof.Machine.execUnusedReturn s
  | .noticeTaken => Sys2Proof.Machine.execNoticeTaken s
  | .recordWrite => Sys2Proof.Machine.execRecordWrite s
  | .moderationTimerExpiry => Sys2Proof.Machine.execModerationTimerExpiry s
  | .orderReadIssue => Sys2Proof.Machine.execOrderReadIssue s
  | .orderReadData tag data => Sys2Proof.Machine.execOrderReadData tag data s
  | .arm => Sys2Proof.Machine.execArm s
  | .sample => Sys2Proof.Machine.execSample s
  | .cancel => Sys2Proof.Machine.execCancel s
  | .lines => Sys2Proof.Machine.execLines s
  | .fence => Sys2Proof.Machine.execFence s
  | .badOrder => Sys2Proof.Machine.execBadOrder s
  | .fenceLimitExpiry => Sys2Proof.Machine.execFenceLimitExpiry s
  | .fenceDoneTaken => Sys2Proof.Machine.execFenceDoneTaken s
  | .runWritten1 => Sys2Proof.Machine.execRunWritten1 s
  | .runWritten0 lossFirst => Sys2Proof.Machine.execRunWritten0 lossFirst s
  | .hostReset => Sys2Proof.Machine.execHostReset s
  | .eventsWrite width value => Sys2Proof.Machine.execEventsWrite width value s
  | .eventMaskWrite width value => Sys2Proof.Machine.execEventMaskWrite width value s
  | .orderTailWrite value => Sys2Proof.Machine.execOrderTailWrite value s
  | .poolTailWrite value => Sys2Proof.Machine.execPoolTailWrite value s
  | .doneHeadWrite value => Sys2Proof.Machine.execDoneHeadWrite value s
  | .registerWrite offset width value => Sys2Proof.Machine.execRegisterWrite offset width value s
  | .setupReadData tag data => Sys2Proof.Machine.execSetupReadData tag data s
  | .setupReadError tag => Sys2Proof.Machine.execSetupReadError tag s
  | .stopComplete => Sys2Proof.Machine.execStopComplete s
  | .fetchError tag => Sys2Proof.Machine.execFetchError tag s
  | .poolError tag => Sys2Proof.Machine.execPoolError tag s
  | .pageError => Sys2Proof.Machine.execPageError s
  | .postError => Sys2Proof.Machine.execPostError s
  | .completionTimeout tag => Sys2Proof.Machine.execCompletionTimeout tag s
  | .linkDown => Sys2Proof.Machine.execLinkDown s
  | .powerOnReset => Sys2Proof.Machine.execPowerOnReset s
  | .linkReset => Sys2Proof.Machine.execLinkReset s
  | .configurationSpaceWrite busMaster msi => Sys2Proof.Machine.execConfigurationSpaceWrite busMaster msi s

end Sys2Proof.Machine
end

