-- ==== Sys2Proof/Machine/Tick.lean ====
section
/-! DEFINITION. The passage of time: with no command waiting, one microsecond passes, unless an event
of the card is due at the present moment, which comes first (DESIGN CHOICE, safe; log entries 1
and 14). -/

namespace Sys2Proof.Machine

/-! ### Events that are due now -/

/-- An event of slot `i` is due at this moment. The work that the Page Writer takes after a handling
time the card does not fix (R94) is not counted, but for a flush expiry of this very moment
(R102). -/
def State.slotDue (s : State) (i : Fin 32) : Bool :=
  s.canTakeLineEvent i || s.canHoldExpire i || s.canArmExpire i || s.canDelayExpire i
    || (s.isRunning && (s.slot i).nextGateEvent.isSome)
    || s.canTakeFired i || s.canReturn i || s.canComplete i || s.canTakeOrderDone i
    || s.canIntervalExpire i || s.canSkipClose i || (s.closablePage i).isSome
    || ((s.expiredPage i).any fun p => p.expired.any fun w => w.arose == s.moment)

/-- A held order can be taken (R115). -/
def State.takingDue (s : State) : Bool :=
  s.maySlot kindArm || s.maySlot kindSample
    || (s.takeable (HeldOrder.isValid kindCancel)).isSome
    || (s.takeable (HeldOrder.isValid kindLines)).isSome
    || s.takeableFence.isSome || (s.takeable fun h => h.detail != 0).isSome

/-- The answer of a read is due: bus mastering is disabled, or its 50 ms are over (R151). -/
def BusRead.answerDue (r : BusRead) : Bool := r.refused || Config.readTimeout ≤ r.elapsed

/-- A bus error is due (R151). -/
def State.errorDue (s : State) : Bool :=
  s.setupReading BusRead.answerDue || s.orderReading BusRead.answerDue
    || s.poolReading BusRead.answerDue || (s.canFault && !s.link.undelivered.isEmpty)

/-- Some event of the card is due at this moment, so time does not pass before it is taken. -/
def State.eventDue (s : State) : Bool :=
  ((List.finRange 16).any fun l => s.canQualify l) || slotNumbers.any s.slotDue
    || s.canGrant || s.settledScan.isSome || s.convertedScan.isSome || s.canReadPool
    || s.canTakeNotice || s.canWriteRecord || s.canModerationExpire || s.canReadOrder
    || s.takingDue || (s.isLive && s.fetch.fence.any Fence.expired) || s.fenceRecord.isSome
    || s.canStop || s.errorDue

/-! ### One microsecond -/

/-- A running timer advances by one microsecond; a stopped one stays stopped. -/
def tickTimer (timer : Option Nat) : Option Nat := timer.map (· + 1)

/-- The qualification timer of a line (R2). -/
def Line.tick (l : Line) : Line := { l with qualifying := tickTimer l.qualifying }

/-- The age timer of an open page; the moment of its expiry is noted when it reaches the flush
interval (R102). -/
def OpenPage.tick (limit : Nat) (moment : Moment) (p : OpenPage) : OpenPage :=
  if p.expired.isSome then p
  else
    { p with age := tickTimer p.age,
             expired := if timerReached (tickTimer p.age) limit then some (.fresh moment)
               else none }

/-- The timers of a slot (R17, R24, R49, R64, R102); `moment` is the moment reached. -/
def Slot.tick (limit : Nat) (moment : Moment) (x : Slot) : Slot :=
  { x with holdTimer := tickTimer x.holdTimer, armTimer := tickTimer x.armTimer,
           delayTimer := tickTimer x.delayTimer, intervalTimer := tickTimer x.intervalTimer,
           openPage := x.openPage.map (OpenPage.tick limit moment) }

/-- The completion timer of a read (R151). -/
def BusRead.tick (r : BusRead) : BusRead := { r with elapsed := r.elapsed + 1 }

/-- The phase of the entry under way (R77). -/
def Phase.tick : Phase → Phase
  | .settling t => .settling (t + 1)
  | .converting t => .converting (t + 1)

/-- The scan in conversion (R77). -/
def Conversion.tick (c : Conversion) : Conversion := { c with phase := c.phase.tick }

/-- The fence limit timer (R121). -/
def Fence.tick (f : Fence) : Fence := { f with timer := tickTimer f.timer }

/-- The timestamp counter advances by one, with its wrap (R144). -/
def RunControl.tick (r : RunControl) : RunControl :=
  { r with timestamp := r.timestamp + 1,
           epoch := if r.timestamp + 1 == 0 then r.epoch + 1 else r.epoch }

/-- The lines through one microsecond; no later change joins an earlier line event (R6). -/
def State.tickLines (s : State) : State :=
  { s with lines := { lines := s.lines.lines.map Line.tick, latest := none } }

/-- The blocks that run in RUNNING and STOPPING through one microsecond. -/
def State.tickBlocks (s : State) : State :=
  let t := { s with run := s.run.tick }
  { t.mapSlots (Slot.tick (s.run.copy.flushInterval.toNat * Config.perMilli) t.moment) with
    fetch.read := s.fetch.read.map fun r => { r with read := r.read.tick },
    fetch.fence := s.fetch.fence.map Fence.tick,
    sched.conversion := s.sched.conversion.map Conversion.tick,
    pages.poolRead := s.pages.poolRead.map BusRead.tick,
    post.timer := tickTimer s.post.timer }

/-- One microsecond passes (Table 8-3, R144): in STOPPED the lines alone run, in STARTING the setup
read's completion timer too, and in FAULTED everything holds. -/
def State.tick (s : State) : State :=
  match s.run.runState with
  | .stopped => s.tickLines
  | .starting => { s.tickLines with run.setupRead := s.run.setupRead.map BusRead.tick }
  | .running | .stopping => s.tickLines.tickBlocks
  | .faulted => { s with lines.latest := none }

/-- What the block does with no command waiting: it waits for an event that is due, and otherwise a
microsecond passes. -/
def idle (s : State) : Result := .next (if s.eventDue then s else s.tick)

end Sys2Proof.Machine
end

