-- ==== Sys2Proof/Safety.lean ====
section
/-! DEFINITION. The terms in which claims about the controller are made: what a fire, an ending, an
entry to the watch and the other shared effects leave behind, written out from the rules, and the
invariants of the state. Nothing here is used by the machine. -/

namespace Sys2Proof.Machine

/-! ### Effects on one slot -/

/-- The slot holds an order that is GATED on slot `i` (R44). -/
def Slot.LinksTo (x : Slot) (i : Fin 32) : Prop := x.state = .gated ∧ x.gateTarget = some i

/-- No entry of slot `i` waits in the Due Queue (R67). -/
def State.NoEntry (s : State) (i : Fin 32) : Prop := ∀ d ∈ s.sched.due, d.slot ≠ i

/-- Every slot other than `i` is as before, but for the followers of slot `i`, which are offered the
event `e` of their gate (R45). -/
def FollowersHear (s t : State) (i : Fin 32) (e : GateEvent) : Prop :=
  ∀ j, j ≠ i →
    ((s.slot j).LinksTo i → t.slot j = { s.slot j with gateEvents := (s.slot j).gateEvents ++ [e] })
    ∧ (¬ (s.slot j).LinksTo i → t.slot j = s.slot j)

/-- The slot asks for the close of its page: its firing or its order has ended, nothing of it is in
the converter or in staging, and its FIRED record has left (R54, R57, R101). -/
def Slot.Asks (x : Slot) : Prop :=
  x.handOn = .pagePending
    ∧ ((x.state = .running ∧ x.order.scanCount ≠ 0 ∧ x.resolved = x.order.scanCount.toNat)
        ∨ x.state = .closing)
    ∧ x.inConversion = false ∧ x.inStaging = 0 ∧ x.pendingFired = none

/-- The record `y` is `x`, with the request noted as new work of this moment if the slot asks now for
the first time (R105); a request that waits already keeps its moment (log entry 32). -/
def Slot.AskedFrom (x : Slot) (moment : Moment) (y : Slot) : Prop :=
  (x.Asks → x.requestSince = none →
      y = { x with requestSince := some { arose := moment, held := false } })
    ∧ (¬ (x.Asks ∧ x.requestSince = none) → y = x)

/-- The record `y` is `x`, with the page done at once if the slot asks and has no page (R54, R57,
R101). -/
def Slot.SettlesTo (x y : Slot) : Prop :=
  (x.Asks ∧ x.openPage = none ∧ x.closingPage = none →
      y = { x with handOn := .pageDone, requestSince := none })
    ∧ (¬ (x.Asks ∧ x.openPage = none ∧ x.closingPage = none) → y = x)

/-- The grid goes on after `due` scans of the firing have become due (R64, R66). -/
def Slot.gridGoesOn (x : Slot) (due : Nat) : Bool :=
  x.order.interval != 0 && (x.order.scanCount == 0 || x.order.scanCount.toNat != due)

/-- The record of a slot that has fired, its first scan due at `moment` (R32, R35, R63, R67). -/
def Slot.afterFire (x : Slot) (record : FiredRecord) (moment : Moment) : Slot :=
  { x with
    state := .running
    holdTimer := none
    armTimer := none
    delayTimer := none
    onset := none
    offered := []
    gateTarget := none
    gateEvents := []
    resolved := 0
    dueCount := 1
    becameDue := x.becameDue + 1
    missedRun := 0
    intervalTimer := if x.gridGoesOn 1 then some 0 else none
    nextDue := if x.gridGoesOn 1 then some moment else none
    pendingFired := if x.order.notifyFire then some record else x.pendingFired
    handOn := .pagePending
    requestSince := none }

/-- The FIRED record of a fire of slot `i` now (R34, R35, R36). -/
def State.fireRecord (s : State) (i : Fin 32) (cause : Cause) (onset time : Timestamp) :
    FiredRecord :=
  { tag := (s.slot i).order.tag
    orderNumber := (s.slot i).order.number
    fireNumber := s.run.fireNumber + 1
    firingIndex := BitVec.ofNat 8 (s.slot i).firings
    cause := cause
    onset := onset
    fireTime := time
    snapshot := s.word }

/-- The Due Queue entry of a scan of slot `i` that becomes due now (R69), its due time in whole
microseconds (log entry 33). -/
def State.entryNow (s : State) (i : Fin 32) : DueEntry :=
  { slot := i
    priority := (s.slot i).order.priority
    due := s.moment
    firingIndex := BitVec.ofNat 8 (s.slot i).firings }

/-- Slot `i` fires as one step (R32): its record, its followers, its first scan in the Due Queue and
the fire number change, and nothing else. -/
def Fires (s t : State) (i : Fin 32) (cause : Cause) (onset time : Timestamp) : Prop :=
  t.slot i = (s.slot i).afterFire (s.fireRecord i cause onset time) s.moment
    ∧ FollowersHear s t i (.opening time)
    ∧ t = { s with run.fireNumber := s.run.fireNumber + 1,
                   slots := t.slots,
                   sched.due := insertDue (s.entryNow i) s.sched.due }

/-- The record of a slot whose scan is counted missed (R51, R63). -/
def Slot.afterMiss (x : Slot) : Slot :=
  { x with
    missed := x.missed + 1
    missedRun := min (x.missedRun + 1) 65535
    resolved := if x.order.scanCount = 0 then x.resolved else x.resolved + 1 }

/-- The record of a slot that enters CLOSING with nothing of it waiting in the Due Queue
(R56, R57). -/
def Slot.afterEnding (x : Slot) (reason : EndReason) (time : Timestamp) : Slot :=
  { x with
    state := .closing
    endReason := some reason
    endTime := some time
    holdTimer := none
    armTimer := none
    delayTimer := none
    onset := none
    offered := []
    gateTarget := none
    gateEvents := []
    intervalTimer := none
    nextDue := none
    handOn := if x.state = .running then .pagePending else .pageDone }

/-- The record of slot `i` as it enters CLOSING, its waiting scan counted missed (R56 item 4). -/
def State.endedRecord (s : State) (i : Fin 32) (reason : EndReason) (time : Timestamp) : Slot :=
  if s.sched.due.any fun d => d.slot == i then (s.slot i).afterMiss.afterEnding reason time
  else (s.slot i).afterEnding reason time

/-- Slot `i` enters CLOSING as one step (R56): its record, its followers and its waiting entry
change, and nothing else. -/
def Ends (s t : State) (i : Fin 32) (reason : EndReason) (time : Timestamp) : Prop :=
  (s.endedRecord i reason time).AskedFrom s.moment (t.slot i)
    ∧ FollowersHear s t i (.loss time)
    ∧ t = { s with slots := t.slots, sched.due := s.sched.due.filter fun d => d.slot != i }

/-- The record of a slot in the watch without a hold. -/
def Slot.watchingIn (x : Slot) (w : WatchState) : Slot :=
  { x with state := .watching w, holdTimer := none, onset := none }

/-- The record of a slot in HOLD since `onset`. -/
def Slot.holdingSince (x : Slot) (onset : Timestamp) : Slot :=
  { x with state := .watching .hold, holdTimer := some 0, onset := some onset }

/-- Slot `i`, with the ARM order `a`, enters the watch at `time` (R18, Table 2-4). -/
def EntersWatch (s t : State) (i : Fin 32) (a : ArmOrder) (time : Timestamp) : Prop :=
  let x := { s.slot i with gateTarget := none, gateEvents := [], offered := [] }
  if a.pattern.holds s.word then
    match a.pattern.fireMode with
    | .entry => t = s.setSlot i (x.watchingIn .clearWait)
    | .level =>
      if a.holdTime = 0 then Fires s t i .pattern time time
      else t = s.setSlot i (x.holdingSince time)
  else t = s.setSlot i (x.watchingIn .trueWait)

/-- A scan of slot `i`, which has no entry waiting, becomes due (R67, R71). -/
def BecomesDue (s t : State) (i : Fin 32) : Prop :=
  let x := s.slot i
  let due := min (x.dueCount + 1) 65535
  t = { s.setSlot i
          { x with dueCount := due
                   becameDue := x.becameDue + 1
                   intervalTimer := if x.order.scanCount ≠ 0 ∧ due = x.order.scanCount.toNat
                     then none else x.intervalTimer
                   nextDue := if x.order.scanCount ≠ 0 ∧ due = x.order.scanCount.toNat
                     then none else x.nextDue }
        with sched.due := insertDue (s.entryNow i) s.sched.due }

/-- What follows at slot `i` once a stored or dropped scan of it has been counted in `s`: the order
ends OK after its last firing, the firing starts ending (R53), the next back-to-back scan becomes due
(R65, R66), or the slot may ask for its page (R57). The next scan is inserted before a
grant of the same moment (R75, log entry 30). -/
def ScanResolved (s t : State) (i : Fin 32) : Prop :=
  let x := s.slot i
  if x.state = .running ∧ x.order.scanCount ≠ 0 ∧ x.resolved = x.order.scanCount.toNat then
    if x.firings = x.order.rearm.toNat then Ends s t i .ok s.now
    else ∃ y, { x with intervalTimer := none, nextDue := none }.AskedFrom s.moment y
      ∧ t = s.setSlot i y
  else if x.state = .running ∧ x.order.interval = 0
      ∧ (x.order.scanCount = 0 ∨ x.dueCount < x.order.scanCount.toNat) then BecomesDue s t i
  else ∃ y, x.AskedFrom s.moment y ∧ t = s.setSlot i y

/-! ### Sample pages -/

/-- The misses that a result of the firing `firing` inherits from dropped results (R95, R96). -/
def Slot.carriedFor (x : Slot) (firing : Byte) : Nat :=
  if x.carriedFiring = some firing then x.carriedMisses else 0

/-- The resolved count once a scan of the firing `firing` is stored or dropped (R51). -/
def Slot.resolvedAfter (x : Slot) (firing : Byte) : Nat :=
  if x.order.scanCount ≠ 0 ∧ firing = BitVec.ofNat 8 x.firings then x.resolved + 1 else x.resolved

/-- The reports of writes not delivered once one more write of a kind is issued (R151). -/
def State.undeliveredAfter (s : State) (kind : WriteClass) : List WriteClass :=
  if s.link.busMaster then s.link.undelivered else s.link.undelivered ++ [kind]

/-- The page `p` with one more record, of the scan result `r` (R95 items 3 and 4). -/
def State.pageWith (s : State) (p : OpenPage) (r : ScanResult) : OpenPage :=
  { p with
    fill := p.fill + (12 + 2 * r.values.length + 3) / 4 * 4
    scans := p.scans + 1
    first := if p.scans = 0 then r.timestamp else p.first
    age := if p.scans = 0 then (if s.run.copy.flushInterval = 0 then none else some 0) else p.age }

/-- The state once the result `r` is stored in the page `p`, the cache becoming `cache` (R95). -/
def State.afterStore (s : State) (r : ScanResult) (p : OpenPage) (cache : List Descriptor) :
    State :=
  let x := s.slot r.slot
  { s.setSlot r.slot
      { x with
        openPage := some (s.pageWith p r)
        carriedMisses := 0
        inStaging := x.inStaging - 1
        stored := x.stored + 1
        resolved := x.resolvedAfter r.firingIndex }
    with
    sched.staging := s.sched.staging.tail
    pages.cache := cache
    link.undelivered := s.undeliveredAfter .page
    link.issued := s.link.issued ++
      [.memory (p.descriptor.address + BitVec.ofNat 64 p.fill)
        (scanRecordBytes r.timestamp r.snapshot
          (min (r.missedBefore + x.carriedFor r.firingIndex) 65535) r.firingIndex r.values)] }

/-- The state once the result `r` is dropped (R96, R97, R134). -/
def State.afterDrop (s : State) (r : ScanResult) : State :=
  let x := s.slot r.slot
  { s.setSlot r.slot
      { x with
        carriedMisses := min (x.carriedFor r.firingIndex + r.missedBefore) 65535
        carriedFiring := some r.firingIndex
        inStaging := x.inStaging - 1
        dropped := x.dropped + 1
        resolved := x.resolvedAfter r.firingIndex }
    with
    sched.staging := s.sched.staging.tail
    pages.dry := true
    post.dryNotice :=
      match s.post.dryNotice with
      | some n => some { n with count := min (n.count + 1) 65535, ident := 0 }
      | none =>
        if s.pages.dry then none
        else some { code := .poolDry, count := 1, ident := 0, time := s.now } }

/-- The state once the close of the page `p` of slot `i` has begun (R98): it has to wait if a condition
of R98 is not met. -/
def State.closing (s : State) (i : Fin 32) (p : OpenPage) (flags : PageFlags) (requested : Bool) :
    State :=
  { s.setSlot i
      { s.slot i with
        openPage := none
        requestSince := if requested then none else (s.slot i).requestSince
        closingPage := some { page := p, flags := flags, requested := requested } } with
    pages.closeWaits := decide ((s.slot i).pendingFired ≠ none ∨ 24 ≤ s.post.queue.length) }

/-- The piece of work `w` waits for the Page Writer: it is the oldest staged result, the request of a
slot for the close of its open page, or the expiry of an open page (R105). -/
def State.Waits (s : State) (w : WorkItem) : Prop :=
  (∃ r, s.sched.staging.head? = some r ∧ r.work = w)
    ∨ ∃ j p, (s.slot j).openPage = some p
        ∧ (((s.slot j).Asks ∧ (s.slot j).requestSince = some w) ∨ p.expired = some w)

/-- The Page Writer may take work that arose at `arose`: no close is under way, and of the work that
was waiting when a stall ended nothing older is left (R105, log entry 15). -/
def State.PageWriterTakes (s : State) (arose : Moment) : Prop :=
  (∀ j, (s.slot j).closingPage = none)
    ∧ ∀ w, s.Waits w → w.held = true → arose ≤ w.arose

/-- The moment at which the request of slot `i` arose: now, if it is not noted yet. -/
def State.askedAt (s : State) (i : Fin 32) : Moment :=
  match (s.slot i).requestSince with
  | some w => w.arose
  | none => s.moment

/-- The state once the close under way is taken, before its own effects: if it had to wait, all the
work that waits is marked, to be taken oldest first (R105, log entry 15). -/
def State.afterStall (s : State) : State :=
  if s.pages.closeWaits then
    { s with
      slots := s.slots.map fun x =>
        { x with
          requestSince := x.requestSince.map fun w => { w with held := true }
          openPage := x.openPage.map fun p =>
            { p with expired := p.expired.map fun w => { w with held := true } } }
      sched.staging := s.sched.staging.map fun r => { r with work.held := true } }
  else s

/-! ### The completion of a firing that is not the last (R54, R61) -/

/-- A firing of slot `i` that is not the last has its scans resolved, its FIRED record taken and its page
done: it completes before the slot takes another event (R54, R61). -/
def State.AwaitsCompletion (s : State) (i : Fin 32) : Prop :=
  let x := s.slot i
  s.run.runState = .running ∧ x.state = .running ∧ x.order.scanCount ≠ 0
    ∧ x.resolved = x.order.scanCount.toNat ∧ x.handOn = .pageDone ∧ x.pendingFired = none
    ∧ ∃ a, x.order.kind = .arm a

/-- The arm timer of an ARM as it starts (R24). -/
def ArmOrder.timerStart (a : ArmOrder) : Option Nat := if a.armTimeout = 0 then none else some 0

/-- The firing of slot `i` is counted and the slot returns to the watch now with a fresh arm timer (R54,
R37, R24). -/
def CompletesFiring (s t : State) (i : Fin 32) : Prop :=
  ∃ a, (s.slot i).order.kind = .arm a
    ∧ EntersWatch
        (s.setSlot i { s.slot i with firings := (s.slot i).firings + 1
                                     handOn := .pagePending
                                     requestSince := none
                                     armTimer := a.timerStart }) t i a s.now

/-- The firings of the slots listed that await their completion complete, in this order. -/
def CompleteFirings : List (Fin 32) → State → State → Prop
  | [], s, t => t = s
  | i :: rest, s, t =>
    ∃ m, (s.AwaitsCompletion i → CompletesFiring s m i) ∧ (¬ s.AwaitsCompletion i → m = s)
      ∧ CompleteFirings rest m t

/-! ### Lines -/

/-- A line that receives a debounce time (R11, Table 1-3). -/
def Line.retimed (x : Line) (time : Byte) : Line :=
  match x.qualifying with
  | none => { x with debounce := time }
  | some _ =>
    if time = 0 then { x with debounce := 0, qualifying := none, level := x.raw }
    else { x with debounce := time, qualifying := some 0 }

/-- A line that resumes from its frozen level (R13). -/
def Line.resumed (x : Line) : Line :=
  if x.raw = x.level then { x with qualifying := none }
  else if x.debounce = 0 then { x with qualifying := none, level := x.raw }
  else { x with qualifying := some 0 }

/-- Line `l` is given the record `x`; nothing else changes. -/
def State.setLine (s : State) (l : Fin 16) (x : Line) : State :=
  { s with lines.lines := s.lines.lines.set l x }

/-- The lines become `v` at this moment (R6, R8). Where the debounced word changes, one line event is
made, or joined when `sameMoment` says that the change belongs to the latest one, and every slot in
WATCHING is offered it; no other slot changes. -/
def LinesBecome (s t : State) (v : Vector Line 16) (sameMoment : Bool) : Prop :=
  let changed := s.word ^^^ lineWord v
  t.lines.lines = v
    ∧ t = { s with lines := t.lines, slots := t.slots }
    ∧ (changed = 0 → t.lines.latest = s.lines.latest ∧ t.slots = s.slots)
    ∧ (changed ≠ 0 →
        match s.joinable changed sameMoment with
        | none =>
          let e : LineEvent := { time := s.now, word := lineWord v, changed := changed }
          t.lines.latest = some e ∧ ∀ j,
            t.slot j = if (s.slot j).isWatching
              then { s.slot j with offered := (s.slot j).offered ++ [e] } else s.slot j
        | some old =>
          let e : LineEvent :=
            { time := old.time, word := lineWord v, changed := old.changed ||| changed }
          t.lines.latest = some e ∧ ∀ j,
            t.slot j = if (s.slot j).isWatching then
              (if (s.slot j).offered.getLast? = some old
                then { s.slot j with offered := (s.slot j).offered.dropLast ++ [e] }
                else { s.slot j with offered := (s.slot j).offered ++ [e] })
              else s.slot j)

/-! ### Events, faults, orders, resets -/

/-- The MSI message is sent when EVENTS and EVENT_MASK become `flags` and `mask` (R141). -/
def State.sendsMessage (s : State) (flags mask : BitVec 5) : Bool :=
  s.link.msi && s.events.flags &&& s.events.mask == 0 && flags &&& mask != 0

/-- EVENTS and EVENT_MASK become `flags` and `mask`, with the message that goes with it (R141). -/
def State.eventsBecome (s : State) (flags mask : BitVec 5) : State :=
  { s with
    events := { flags := flags, mask := mask }
    link.issued := s.link.issued ++ if s.sendsMessage flags mask then [.msi] else [] }

/-- The flag at bit `k` of EVENTS is set (R140). -/
def State.flagged (s : State) (k : Nat) : State :=
  s.eventsBecome (s.events.flags ||| BitVec.twoPow 5 k) s.events.mask

/-- The card has entered FAULTED with the code `code` (R152): the word is frozen (R13), fetching is OFF
(R125), the scan in conversion is abandoned (R86), the flag FAULT is set, and all else is kept. -/
def EntersFaulted (s t : State) (code : FaultCode) : Prop :=
  (∀ l : Fin 16, t.lines.lines[l] = { s.lines.lines[l] with qualifying := none })
    ∧ t.lines.latest = none
    ∧ t = { s.flagged 3 with
            lines := t.lines
            run.runState := .faulted
            run.faultCode := code
            fetch.state := .off
            sched.conversion := none }

/-- The held order has been taken: the head has advanced, the number is claimed, the order is released
(R115, R116). -/
def State.afterTaking (s : State) : State :=
  { s with
    fetch.head := (s.fetch.head + 1) % s.run.copy.orderSize.toNat
    fetch.held := none
    fetch.state := .idle
    run.orderNumber := s.run.orderNumber + 1 }

/-- The record `r` has entered the Post Queue as its newest (R131); a queue that is full now makes a
close under way wait (R98, R105). -/
def State.posted (s : State) (r : CompletionRecord) : State :=
  { s with
    post.queue := s.post.queue ++ [r]
    pages.closeWaits := s.pages.closeWaits || decide (24 ≤ s.post.queue.length + 1) }

/-- The order held has been taken and its ORDER_DONE record has entered the Post Queue (R126). -/
def State.answered (s : State) (tag : BitVec 16) (status : Status) (detail : BitVec 4) : State :=
  s.afterTaking.posted
    (.orderDone { status := status, tag := tag, orderNumber := s.run.orderNumber + 1,
                  detail := detail, firings := 0, pages := 0, ended := s.now, stored := 0,
                  missed := 0, dropped := 0 })

/-- An order is held and, as far as ring and run state go, may be taken (R115). -/
def State.MayTake (s : State) (h : HeldOrder) : Prop :=
  s.run.runState = .running ∧ s.fetch.state = .holding ∧ s.fetch.held = some h
    ∧ s.window.orderTail ≠ s.fetch.head

/-- Slot `i` is the lowest-numbered FREE slot (R41). -/
def State.LowestFree (s : State) (i : Fin 32) : Prop :=
  (s.slot i).state = .free ∧ ∀ j, j < i → (s.slot j).state ≠ .free

/-- Slot `j` is occupied and holds the tag `tag` (R42). -/
def State.Holds (s : State) (j : Fin 32) (tag : BitVec 16) : Prop :=
  (s.slot j).state ≠ .free ∧ (s.slot j).order.tag = tag

/-- The fence takes an outcome at `time`, unless it has one (R121). -/
def Fence.takes (f : Fence) (status : Status) (time : Timestamp) : Fence :=
  if f.outcome = none then { f with timer := none, outcome := some (status, time) } else f

/-- The Post Queue has room for one record (R131). -/
def State.HasRoom (s : State) : Prop := s.post.queue.length < 24

/-- The run state is RUNNING or STOPPING. -/
def State.Live (s : State) : Prop := s.run.runState = .running ∨ s.run.runState = .stopping

/-- What is left in the card when it may leave STOPPING: nothing (R150). -/
def State.Drained (s : State) : Prop :=
  s.fetch.read = none ∧ s.fetch.fence = none ∧ (∀ j, (s.slot j).state = .free)
    ∧ s.sched.conversion = none ∧ s.sched.staging = [] ∧ s.pages.poolRead = none
    ∧ s.pages.cache = [] ∧ s.post.queue = [] ∧ s.post.dryNotice = none ∧ s.post.badNotice = none

/-- The run's structures as every reset and every entry to RUNNING leave them (R148, R154). -/
def State.emptied (s : State) : State :=
  { s with
    run.setupRead := none
    run.timestamp := 0
    run.epoch := 0
    run.orderNumber := 0
    run.fireNumber := 0
    fetch := { state := .off, head := 0, read := none, held := none, fence := none }
    slots := Vector.replicate 32 Slot.free
    sched := { due := [], conversion := none, staging := [] }
    pages := { poolHead := 0, poolRead := none, cache := [], dry := false, closeWaits := false }
    post := { tail := 0, lap := true, queue := [], dryNotice := none, badNotice := none,
              gathered := 0, timer := none }
    link.undelivered := [] }

/-- The values of R154 that every reset gives. -/
def State.resetValues (s : State) : State :=
  { s.emptied with
    run.runState := .stopped
    run.faultCode := .none
    run.setupResult := .ok
    events := { flags := 0, mask := 0 }
    window := { run := false, setupLo := 0, setupHi := 0, orderTail := 0, poolTail := 0,
                doneHead := 0 }
    lines.latest := none }

/-- The start has ended in STOPPED with the setup result `result` (R145, R146, R147). -/
def State.startEnded (s : State) (result : SetupResult) : State :=
  { s with
    run.runState := .stopped
    run.setupResult := result
    run.setupRead := none
    window.run := false }.flagged 2

/-- The setup result of the data of a setup read: the first check of Table 8-4 that fails (R146). -/
def SetupCopy.verdict (c : SetupCopy) : SetupResult :=
  if ¬ (64 ∣ c.orderBase.toNat ∧ 64 ∣ c.poolBase.toNat ∧ 64 ∣ c.doneBase.toNat) then .badAlignment
  else if ∃ size ∈ [c.orderSize, c.poolSize, c.doneSize],
      ∀ k ∈ [4, 5, 6, 7, 8, 9, 10, 11, 12], size.toNat ≠ 2 ^ k then .badRingSize
  else if ∀ k ∈ [10, 11, 12, 13, 14, 15, 16], c.pageSize.toNat ≠ 2 ^ k then .badPageSize
  else if c.moderationCount = 0 then .badModeration
  else if ∃ ch ∈ c.channels.toList,
      ch.enabled = true ∧ (ch.settle.toNat < 1 ∨ 64 < ch.settle.toNat) then .badSettle
  else .ok

/-- Byte `k` of a record (chapter 9). -/
def byteOf {n : Nat} (record : BitVec n) (k : Nat) : Byte := record.extractLsb' (8 * k) 8

/-! ### What is due now (log entry 14) -/

/-- A timer that runs has reached a limit. -/
def Reached (timer : Option Nat) (limit : Nat) : Prop := ∃ n, timer = some n ∧ limit ≤ n

/-- A CLOSING slot has handed on its scans, records and page, and the last firing of an order that ended
OK is counted (R57). -/
def Slot.HandedOn (x : Slot) : Prop :=
  x.state = .closing ∧ x.inConversion = false ∧ x.inStaging = 0 ∧ x.pendingFired = none
    ∧ x.openPage = none ∧ x.closingPage = none
    ∧ (x.endReason = some .ok → x.handOn = .completed)
    ∧ (x.endReason ≠ some .ok → x.handOn = .pageDone)

/-- An event of slot `i` in its watch, at its gate, in its delay or on its grid is due: a line event
(R8), the expiry of the hold, arm, delay or interval timer (R23, R25, R26, R49, R64), or an event of its
gate (R46, R47). -/
def State.WatchDue (s : State) (i : Fin 32) : Prop :=
  let x := s.slot i
  s.run.runState = .running
    ∧ (((∃ w, x.state = .watching w) ∧ x.offered ≠ [])
      ∨ (x.state = .watching .hold ∧ ∃ n, x.holdTimer = some n
          ∧ ∀ a, x.order.kind = .arm a → a.holdTime.toNat ≤ n)
      ∨ (((∃ w, x.state = .watching w) ∨ x.state = .gated) ∧ ∃ n, x.armTimer = some n
          ∧ ∀ a, x.order.kind = .arm a → a.armTimeout.toNat * 1000 ≤ n)
      ∨ (x.state = .delaying ∧ ∃ n, x.delayTimer = some n
          ∧ ∀ d, x.order.kind = .sample d → d.toNat ≤ n)
      ∨ (x.state = .gated ∧ x.gateEvents ≠ [])
      ∨ (x.state = .running ∧ x.order.interval ≠ 0
          ∧ Reached x.intervalTimer x.order.interval.toNat))

/-- An event of the hand-on of slot `i` is due: its FIRED record (R35), a completion (R54), its
ORDER_DONE record (R58), a request without a page (R101), a close whose conditions hold (R98), or the
expiry of its page at this very moment (R102). -/
def State.HandOnDue (s : State) (i : Fin 32) : Prop :=
  let x := s.slot i
  s.AwaitsCompletion i
    ∨ (s.Live
      ∧ ((s.HasRoom ∧ x.pendingFired ≠ none)
        ∨ (x.state = .closing ∧ x.endReason = some .ok ∧ x.handOn = .pageDone
            ∧ x.pendingFired = none)
        ∨ (s.HasRoom ∧ x.HandedOn ∧ ∀ j, ¬ (s.slot j).LinksTo i)
        ∨ (x.Asks ∧ x.openPage = none ∧ x.closingPage = none)
        ∨ (s.HasRoom ∧ x.pendingFired = none ∧ x.closingPage ≠ none)
        ∨ (∃ p w, x.openPage = some p ∧ p.expired = some w ∧ w.arose = s.moment
            ∧ s.PageWriterTakes w.arose)))

/-- A step of the converter is due: a grant (R72), the end of a settle time or of a conversion (R77). -/
def State.ConverterDue (s : State) : Prop :=
  s.Live
    ∧ ((s.sched.conversion = none ∧ s.sched.staging.length < 4 ∧ s.sched.due ≠ [])
      ∨ (∃ c n, s.sched.conversion = some c ∧ c.phase = .settling n
          ∧ (s.run.copy.channels[((c.entries[c.values.length]?).getD
              { channel := 0, averaging := 1 }).channel]).settle.toNat ≤ n)
      ∨ (∃ c n, s.sched.conversion = some c ∧ c.phase = .converting n ∧ 2 ≤ n))

/-- A held order can be taken (R115, Table 6-5), an outcome of a fence is due or its record can enter the
Post Queue (R121), or an order read can be issued (R111, R116). -/
def State.OrderDue (s : State) : Prop :=
  (∃ h, s.MayTake h
      ∧ ((h.detail = 0 ∧ (h.image.kind = 1 ∨ h.image.kind = 2) ∧ s.HasRoom
            ∧ ∃ j, (s.slot j).state = .free)
        ∨ (h.detail = 0 ∧ (h.image.kind = 3 ∨ h.image.kind = 4) ∧ s.HasRoom)
        ∨ (h.detail = 0 ∧ h.image.kind = 5)
        ∨ (h.detail ≠ 0 ∧ s.HasRoom)))
    ∨ (s.Live ∧ ∃ f, s.fetch.fence = some f
        ∧ ((f.outcome = none ∧ Reached f.timer (f.limit.toNat * 1000))
          ∨ (f.outcome ≠ none ∧ s.HasRoom)))
    ∨ (s.run.runState = .running ∧ s.fetch.state = .idle ∧ s.window.orderTail ≠ s.fetch.head
        ∧ s.run.orderNumber ≠ 0xFFFFFFFF)

/-- A descriptor read can be issued (R89), a latched notice can enter the Post Queue (R135), a record can
be written (R132), or the moderation timer has expired (R138). -/
def State.QueueDue (s : State) : Prop :=
  let size := s.run.copy.doneSize.toNat
  (s.run.runState = .running ∧ s.pages.poolRead = none ∧ s.pages.cache.length < 8
      ∧ s.pages.poolHead ≠ s.window.poolTail)
    ∨ (s.Live ∧ s.HasRoom ∧ (s.post.dryNotice ≠ none ∨ s.post.badNotice ≠ none))
    ∨ (s.Live ∧ s.post.queue ≠ [] ∧ (s.post.tail + size - s.window.doneHead) % size + 1 < size)
    ∨ (s.Live ∧ Reached s.post.timer s.run.copy.moderationDelay.toNat)

/-- The answer of a read is due: bus mastering is disabled, or its 50 ms are over (R151). -/
def BusRead.AnswerDue (r : BusRead) : Prop := r.refused = true ∨ 50000 ≤ r.elapsed

/-- A bus error is due (R146, R151): of a read in flight, or of a write not delivered. -/
def State.ErrorDue (s : State) : Prop :=
  (s.run.runState = .starting ∧ ∃ r, s.run.setupRead = some r ∧ r.AnswerDue)
    ∨ (s.Live ∧ ∃ o, s.fetch.read = some o ∧ o.read.AnswerDue)
    ∨ (s.Live ∧ ∃ r, s.pages.poolRead = some r ∧ r.AnswerDue)
    ∨ ((s.run.runState = .starting ∨ s.Live) ∧ s.link.undelivered ≠ [])

/-- A qualification succeeds now (R4). -/
def State.LineDue (s : State) (l : Fin 16) : Prop :=
  s.run.runState ≠ .faulted ∧ s.lines.lines[l].raw ≠ s.lines.lines[l].level
    ∧ Reached s.lines.lines[l].qualifying s.lines.lines[l].debounce.toNat

/-- Some event of the card is due at this moment (log entry 14). -/
def State.Due (s : State) : Prop :=
  (∃ l, s.LineDue l) ∨ (∃ i, s.WatchDue i ∨ s.HandOnDue i) ∨ s.ConverterDue ∨ s.OrderDue
    ∨ s.QueueDue ∨ s.ErrorDue ∨ (s.run.runState = .stopping ∧ s.Drained)

/-! ### Invariants -/

/-- No store holds more than its capacity: the Post Queue 24 records (R131), the Staging Buffer 4
results with a place for the scan in conversion (R83, R82), the Buffer Cache 8 descriptors with a
place for the read in flight (R91). -/
def WithinCapacity (s : State) : Prop :=
  s.post.queue.length ≤ 24
    ∧ s.sched.staging.length + s.sched.conversion.toList.length ≤ 4
    ∧ s.pages.cache.length + s.pages.poolRead.toList.length ≤ 8

/-- Entry `a` comes before entry `b` in grant order (R70), with due times in whole microseconds (log
entry 33). -/
def ComesBefore (a b : DueEntry) : Prop :=
  a.priority < b.priority
    ∨ (a.priority = b.priority ∧ (a.due < b.due ∨ (a.due = b.due ∧ a.slot < b.slot)))

/-- The Due Queue is in grant order and holds at most one entry per slot (R69, R70). -/
def GrantOrdered (due : List DueEntry) : Prop :=
  due.Pairwise ComesBefore ∧ (due.map DueEntry.slot).Nodup

/-- No two occupied slots hold the same tag (R42). -/
def TagsDistinct (s : State) : Prop :=
  ∀ i j, (s.slot i).state ≠ .free → (s.slot j).state ≠ .free →
    (s.slot i).order.tag = (s.slot j).order.tag → i = j

/-- A line is STEADY exactly while its raw level is its debounced level, and a qualification has run
for at most the debounce time, which is not 0 (R2 to R5). -/
def Line.Settled (l : Line) : Prop :=
  match l.qualifying with
  | none => l.raw = l.level
  | some elapsed => l.raw ≠ l.level ∧ l.debounce ≠ 0 ∧ elapsed ≤ l.debounce.toNat

/-- Every line is settled while the Line Monitor runs; in FAULTED no line is QUALIFYING (R13). -/
def LinesSettled (s : State) : Prop :=
  ∀ l : Fin 16,
    (s.run.runState ≠ .faulted → s.lines.lines[l].Settled)
    ∧ (s.run.runState = .faulted → s.lines.lines[l].qualifying = none)

/-- Every order number given is at most the counter, which has not reached its limit while an order is
read or held (R116), never both at once (R111); and every slot in GATED holds an ARM and links to
another occupied slot with a smaller order number, which is not CLOSING unless a loss waits (R45). -/
def GatesLinkBackward (s : State) : Prop :=
  (∀ i, (s.slot i).state ≠ .free → (s.slot i).order.number ≤ s.run.orderNumber)
    ∧ (s.fetch.state = .holding → s.fetch.read = none)
    ∧ (s.fetch.read ≠ none ∨ s.fetch.state = .holding → s.run.orderNumber ≠ 0xFFFFFFFF)
    ∧ ∀ j, (s.slot j).state = .gated →
        (∃ a, (s.slot j).order.kind = .arm a)
        ∧ ∃ k, (s.slot j).gateTarget = some k ∧ (s.slot k).state ≠ .free
            ∧ (s.slot k).order.number < (s.slot j).order.number
            ∧ ((s.slot k).state = .closing → ∃ time, GateEvent.loss time ∈ (s.slot j).gateEvents)

/-- The scans of slot `i` that are due and not resolved: waiting, in conversion, or staged (R65). -/
def State.outstanding (s : State) (i : Fin 32) : Nat :=
  (s.sched.due.filter fun d => d.slot == i).length + (if (s.slot i).inConversion then 1 else 0)
    + (s.slot i).inStaging

/-- The sum of the three counters of an order (R52). -/
def Slot.counted (x : Slot) : BitVec 32 := x.stored + x.missed + x.dropped

/-- The converter and the Staging Buffer agree with the marks of slot `i`, and what they hold of it
belongs to its present firing (R51, R52). -/
def State.MarksAgree (s : State) (i : Fin 32) : Prop :=
  (s.run.runState ≠ .faulted →
    (s.slot i).inConversion = s.sched.conversion.any fun c => c.slot == i)
    ∧ (s.slot i).inStaging = (s.sched.staging.filter fun r => r.slot == i).length
    ∧ (∀ d ∈ s.sched.due, d.slot = i → d.firingIndex = BitVec.ofNat 8 (s.slot i).firings)
    ∧ (∀ c ∈ s.sched.conversion, c.slot = i → c.firingIndex = BitVec.ofNat 8 (s.slot i).firings)
    ∧ (∀ r ∈ s.sched.staging, r.slot = i → r.firingIndex = BitVec.ofNat 8 (s.slot i).firings)

/-- The account of slot `i` (R52, R53, R64, R65, R67, R69): a slot has at most one entry, and none
while it is not RUNNING; one that is neither RUNNING nor CLOSING has no scan at all; of every order,
continuous ones too, the counters and the scans outstanding sum up to the scans that became due,
modulo 2^32; and for an order with scan count n > 0 the counters of a slot in its `f`-th firing sum up
to n × f and the resolved scans of the firing, and in CLOSING the scans that became due are n × f, or
n × f and those of the unfinished firing. -/
def State.Accounted (s : State) (i : Fin 32) : Prop :=
  let x := s.slot i
  let n := x.order.scanCount.toNat
  (s.sched.due.filter fun d => d.slot == i).length ≤ 1
    ∧ (x.state ≠ .running → s.NoEntry i)
    ∧ (x.state ≠ .running → x.state ≠ .closing →
        s.outstanding i = 0 ∧ x.openPage = none ∧ x.closingPage = none)
    ∧ (x.closingPage ≠ none → x.openPage = none)
    ∧ (x.handOn ≠ .pagePending → x.state = .running ∨ x.state = .closing →
        x.openPage = none ∧ x.closingPage = none)
    ∧ (x.state ≠ .running → x.intervalTimer = none)
    ∧ (x.order.interval = 0 → x.state = .running → s.outstanding i ≤ 1 ∧ x.intervalTimer = none)
    ∧ (n ≠ 0 → x.state = .running →
        x.resolved + s.outstanding i = x.dueCount ∧ x.dueCount ≤ n
          ∧ (x.intervalTimer ≠ none → x.dueCount < n))
    ∧ (n = 0 → x.state = .running → x.handOn = .pagePending)
    ∧ (n ≠ 0 → x.state = .running → x.handOn ≠ .pagePending → x.resolved = n)
    ∧ (x.state = .running → x.handOn ≠ .completed)
    ∧ (x.state = .closing → x.handOn ≠ .pagePending → s.outstanding i = 0)
    ∧ (∀ c ∈ x.closingPage, c.requested = true →
        s.outstanding i = 0 ∧ (x.state = .running → n ≠ 0 ∧ x.resolved = n))
    ∧ (x.state = .closing → x.endReason = some .ok → n ≠ 0 ∧ s.outstanding i = 0)
    ∧ (x.state ≠ .free → x.counted + BitVec.ofNat 32 (s.outstanding i) = x.becameDue)
    ∧ (n ≠ 0 → x.state = .closing →
        x.becameDue = BitVec.ofNat 32 (n * x.firings)
          ∨ x.becameDue = BitVec.ofNat 32 (n * x.firings + x.dueCount))
    ∧ (n ≠ 0 →
        match x.state with
        | .free => True
        | .gated | .watching _ | .delaying => x.counted = BitVec.ofNat 32 (n * x.firings)
        | .running => x.counted = BitVec.ofNat 32 (n * x.firings + x.resolved)
        | .closing => x.endReason = some .ok →
            x.counted = BitVec.ofNat 32
              (if x.handOn = .completed then n * x.firings else n * (x.firings + 1)))

/-- Every slot's marks agree and its scans are accounted for (R52). -/
def ScansAccounted (s : State) : Prop := ∀ i, s.MarksAgree i ∧ s.Accounted i

/-! ### Run state transitions (R143, Table 8-2) -/

/-- The transitions of Table 8-2: the run state after the command `c` is either the one before it or
one that the table lists for it. -/
def RunState.MayBecome (before : RunState) (c : Instr) (after : RunState) : Prop :=
  after = before ∨
    match c with
    | .runWritten1 => before = .stopped ∧ after = .starting
    | .runWritten0 _ =>
      (before = .running ∧ after = .stopping) ∨ (before = .faulted ∧ after = .stopped)
    | .setupReadData _ _ => before = .starting ∧ (after = .running ∨ after = .stopped)
    | .setupReadError _ => before = .starting ∧ after = .stopped
    | .stopComplete => before = .stopping ∧ after = .stopped
    | .fetchError _ | .poolError _ =>
      (before = .running ∨ before = .stopping) ∧ after = .faulted
    | .completionTimeout _ =>
      (before = .starting ∧ after = .stopped)
        ∨ ((before = .running ∨ before = .stopping) ∧ after = .faulted)
    | .pageError | .postError | .linkDown =>
      (before = .starting ∨ before = .running ∨ before = .stopping) ∧ after = .faulted
    | .hostReset | .powerOnReset | .linkReset => after = .stopped
    | _ => False

end Sys2Proof.Machine
end

