-- ==== Sys2Proof/WellFormed.lean ====
section
/-! DEFINITION. Which commands are well formed. Operand ranges are in the operands' types, so the
one check left is that a write with a row of its own is not sent as REGISTER_WRITE (R156). -/

namespace Sys2Proof

/-- Offsets of the registers whose 32-bit writes have a row of their own in the opcode table:
CONTROL, EVENTS, EVENT_MASK, ORDER_TAIL, POOL_TAIL, DONE_HEAD (Table 8-8). -/
def ownRowOffsets : List (BitVec 6) := [0x04, 0x0C, 0x10, 0x1C, 0x20, 0x24]

/-- A REGISTER_WRITE is a write "to a register with no row of its own (SETUP_LO, SETUP_HI,
read-only or unmapped offsets, or a malformed access)" (the table's row). -/
def registerWriteWellFormed (offset : BitVec 6) (width : AccessWidth) : Bool :=
  width != .bits32 || !ownRowOffsets.contains offset

/-- The commands a sender may put in the queue. -/
def Instr.wellFormed : Instr → Bool
  | .registerWrite offset width _ => registerWriteWellFormed offset width
  | .rawLevelChange .. | .qualificationTimerExpiry .. | .lineEventTaken _ | .holdExpiry _
  | .armExpiry _ | .delayExpiry _ | .gateOpening _ | .gateLoss _ | .firedRecordTaken _
  | .firingCompletion _ | .orderDoneTaken _ | .intervalTimerExpiry _ | .grant | .entrySettled
  | .conversionDone _ | .poolReadIssue | .poolReadData .. | .resultTaken | .pageCloseRequest _
  | .flushExpiry _ | .pageClose _ | .unusedReturn | .noticeTaken | .recordWrite
  | .moderationTimerExpiry | .orderReadIssue | .orderReadData .. | .arm | .sample | .cancel
  | .lines | .fence | .badOrder | .fenceLimitExpiry | .fenceDoneTaken | .runWritten1
  | .runWritten0 _ | .hostReset | .eventsWrite .. | .eventMaskWrite .. | .orderTailWrite _
  | .poolTailWrite _ | .doneHeadWrite _ | .setupReadData .. | .setupReadError _ | .stopComplete
  | .fetchError _ | .poolError _ | .pageError | .postError | .completionTimeout _ | .linkDown
  | .powerOnReset | .linkReset | .configurationSpaceWrite .. => true

end Sys2Proof
end

