-- ==== Sys2Proof/Certificates/Slice0/Obligations.lean ====
section
/-! DEFINITION. The statements for the provers. Each says in its docstring which rule of spec/ it
formalises, or which log entry it rests on. -/

open Sys2Proof Sys2Proof.Machine

/-! ### Steps, time and reset -/

/-- A step takes the command at the front of the queue (first in, first out; log entry 1). -/
def Obligations.StepTakesFrontCommand : Prop :=
  ∀ (c : Instr) (rest : List Instr) (s : State), s.pending = c :: rest →
    step s = exec c (s.withPending rest)

/-- With no command waiting, the block waits while an event of the card is due, and otherwise one
microsecond passes (log entry 1). Which events are due is written out from the rules that name their
conditions (log entry 14; the flush expiry, log entry 15). When a microsecond passes, in RUNNING and
STOPPING the timestamp counter and every timer that runs advance by one; in STOPPED and STARTING the
counter holds and the lines alone, and in STARTING the setup read, go on; in FAULTED everything holds
(R144, R13, R17, R102, R151, Table 8-3). That one tick is one microsecond, and the epoch, are the
model's own (log entries 23 and 6). -/
def Obligations.MicrosecondPassesWhenNothingIsDue : Prop :=
  ∀ s : State, s.pending = [] →
    (s.Due → step s = .next s)
    ∧ (¬ s.Due → ∃ t, step s = .next t
      ∧ (s.run.runState = .faulted → t = { s with lines.latest := none })
      ∧ (s.run.runState ≠ .faulted → t.lines.latest = none ∧
          ∀ l : Fin 16, t.lines.lines[l] =
            { s.lines.lines[l] with qualifying := s.lines.lines[l].qualifying.map (· + 1) })
      ∧ (s.run.runState = .stopped → t = { s with lines := t.lines })
      ∧ (s.run.runState = .starting →
          t = { s with
                lines := t.lines
                run.setupRead := s.run.setupRead.map fun r => { r with elapsed := r.elapsed + 1 } })
      ∧ (s.Live →
          t.moment = s.moment + 1
          ∧ (∀ j, t.slot j =
              { s.slot j with
                holdTimer := (s.slot j).holdTimer.map (· + 1)
                armTimer := (s.slot j).armTimer.map (· + 1)
                delayTimer := (s.slot j).delayTimer.map (· + 1)
                intervalTimer := (s.slot j).intervalTimer.map (· + 1)
                openPage := (t.slot j).openPage }
              ∧ (t.slot j).openPage = (s.slot j).openPage.map fun p =>
                  if p.expired ≠ none then p
                  else { p with
                         age := p.age.map (· + 1)
                         expired := p.age.bind fun a =>
                           if s.run.copy.flushInterval.toNat * 1000 ≤ a + 1 then
                             some { arose := t.moment, held := false }
                           else none })
          ∧ t = { s with
                  run.timestamp := s.run.timestamp + 1
                  run.epoch := t.run.epoch
                  lines := t.lines
                  slots := t.slots
                  fetch.read := s.fetch.read.map fun r =>
                    { r with read.elapsed := r.read.elapsed + 1 }
                  fetch.fence := s.fetch.fence.map fun f => { f with timer := f.timer.map (· + 1) }
                  sched.conversion := s.sched.conversion.map fun c =>
                    { c with phase := match c.phase with
                      | .settling n => .settling (n + 1)
                      | .converting n => .converting (n + 1) }
                  pages.poolRead := s.pages.poolRead.map fun r =>
                    { r with elapsed := r.elapsed + 1 }
                  post.timer := s.post.timer.map (· + 1) }))

/-- A power-on reset leaves what the spec gives: Table 8-1, Table 8-8, R14 with every input open, R39,
Table 4-7, Table 5-8, Table 6-9, R142, R155. What the model chose (log entries 7, 10, 12, 21) is not
stated. -/
def Obligations.PowerOnResetValues : Prop :=
  let s := State.reset
  s.run.runState = .stopped ∧ s.run.faultCode = .none ∧ s.run.setupResult = .ok
    ∧ s.run.setupRead = none ∧ s.now = 0 ∧ s.run.orderNumber = 0 ∧ s.run.fireNumber = 0
    ∧ (∀ c : Fin 12, s.run.copy.channels[c].enabled = false)
    ∧ (∀ l : Fin 16, s.lines.lines[l].debounce = 0 ∧ s.lines.lines[l].level = false
        ∧ s.lines.lines[l].qualifying = none)
    ∧ s.word = 0
    ∧ s.fetch.state = .off ∧ s.fetch.head = 0 ∧ s.fetch.read = none ∧ s.fetch.held = none
    ∧ s.fetch.fence = none
    ∧ (∀ i, (s.slot i).state = .free)
    ∧ s.sched.due = [] ∧ s.sched.conversion = none ∧ s.sched.staging = []
    ∧ s.pages.poolHead = 0 ∧ s.pages.poolRead = none ∧ s.pages.cache = [] ∧ s.pages.dry = false
    ∧ s.post.tail = 0 ∧ s.post.lap = true ∧ s.post.queue = [] ∧ s.post.dryNotice = none
    ∧ s.post.badNotice = none ∧ s.post.gathered = 0 ∧ s.post.timer = none
    ∧ s.link.busMaster = false ∧ s.link.msi = false
    ∧ s.readWindow 0x00 .bits32 = 0x0A160001
    ∧ (∀ o ∈ [0x04, 0x08, 0x0C, 0x10, 0x14, 0x18, 0x1C, 0x20, 0x24, 0x28, 0x2C],
        s.readWindow o .bits32 = 0)

/-! ### Lines -/

/-- A change of the raw level of one line: a departure starts a qualification from 0 (R2), a return
abandons it (R3), and with a debounce time of 0 the debounced level follows at once and makes or joins a
line event (R5, R6, R8). In FAULTED the line is not acted on (R13). Every other line and all else is
unchanged. That `sameMoment` says which event a change joins is the model's choice (log entry 4). -/
def Obligations.RawLevelChangeDepartsReturnsOrFollows : Prop :=
  ∀ (s : State) (l : Fin 16) (level sameMoment : Bool),
    let x := s.lines.lines[l]
    let after := exec (.rawLevelChange l level sameMoment) s
    (level = x.raw → after = .next s)
    ∧ (level ≠ x.raw → s.run.runState = .faulted → after = .next (s.setLine l { x with raw := level }))
    ∧ (level ≠ x.raw → s.run.runState ≠ .faulted → x.debounce ≠ 0 →
        (x.qualifying = none → level ≠ x.level →
          after = .next (s.setLine l { x with raw := level, qualifying := some 0 }))
        ∧ (x.qualifying ≠ none → level = x.level →
          after = .next (s.setLine l { x with raw := level, qualifying := none })))
    ∧ (level ≠ x.raw → s.run.runState ≠ .faulted → x.debounce = 0 →
        ∃ t, after = .next t
          ∧ LinesBecome s t
              (s.lines.lines.set l { x with raw := level, qualifying := none, level := level })
              sameMoment)

/-- When the qualification timer has reached the debounce time with the raw level departed, the
debounced level takes the raw level, the line is STEADY, and this one line of the word changes, which
makes a line event (R4, R6, R8). That `sameMoment` says which event a change joins is the model's
choice (log entry 4). -/
def Obligations.QualificationSucceeds : Prop :=
  ∀ (s : State) (l : Fin 16) (sameMoment : Bool) (n : Nat),
    let x := s.lines.lines[l]
    s.run.runState ≠ .faulted → x.qualifying = some n → x.debounce.toNat ≤ n → x.raw ≠ x.level →
    ∃ t, exec (.qualificationTimerExpiry l sameMoment) s = .next t
      ∧ LinesBecome s t (s.lines.lines.set l { x with qualifying := none, level := x.raw }) sameMoment
      ∧ t.word = s.word ^^^ BitVec.twoPow 16 l

/-! ### Patterns and the watch -/

/-- The condition of a pattern: with ANY some line of the mask has its active level, with ALL every line
of the mask has (R16). -/
def Obligations.PatternConditionAnyAll : Prop :=
  ∀ (p : Pattern) (word : LineWord),
    (p.combine = .any →
      (p.holds word = true ↔
        ∃ k : Fin 16, p.mask.getLsbD k = true ∧ word.getLsbD k = p.levels.getLsbD k))
    ∧ (p.combine = .all →
      (p.holds word = true ↔
        ∀ k : Fin 16, p.mask.getLsbD k = true → word.getLsbD k = p.levels.getLsbD k))

/-- A slot in the watch takes its oldest line event by its substate and its condition on the event's new
word (R20, R21, R22). Only slot `i` changes, unless it fires. -/
def Obligations.LineEventJudgedBySubstate : Prop :=
  ∀ (s : State) (i : Fin 32) (a : ArmOrder) (w : WatchState) (e : LineEvent) (rest : List LineEvent),
    s.run.runState = .running → (s.slot i).order.kind = .arm a → (s.slot i).state = .watching w →
    (s.slot i).offered = e :: rest →
    let y := { s.slot i with offered := rest }
    let after := exec (.lineEventTaken i) s
    (a.pattern.holds e.word = false → after = .next (s.setSlot i (y.watchingIn .trueWait)))
    ∧ (a.pattern.holds e.word = true → w ≠ .trueWait → after = .next (s.setSlot i y))
    ∧ (a.pattern.holds e.word = true → w = .trueWait → a.holdTime ≠ 0 →
        after = .next (s.setSlot i (y.holdingSince e.time)))
    ∧ (a.pattern.holds e.word = true → w = .trueWait → a.holdTime = 0 → s.NoEntry i →
        ∃ t, after = .next t ∧ Fires s t i .pattern e.time e.time)

/-- A hold timer that has reached the hold time fires the slot with cause PATTERN and the onset of its
hold (R23, R33); a delay timer that has reached the start delay fires a SAMPLE with cause START (R49).
The fire is that of R32, with all else unchanged. -/
def Obligations.HoldAndDelayExpiryFire : Prop :=
  ∀ (s : State) (i : Fin 32) (n : Nat), s.run.runState = .running → s.NoEntry i →
    (∀ (a : ArmOrder) (onset : Timestamp),
      (s.slot i).order.kind = .arm a → (s.slot i).state = .watching .hold →
      (s.slot i).onset = some onset → (s.slot i).holdTimer = some n → a.holdTime.toNat ≤ n →
      ∃ t, exec (.holdExpiry i) s = .next t ∧ Fires s t i .pattern onset s.now)
    ∧ (∀ delay : BitVec 24,
      (s.slot i).order.kind = .sample delay → (s.slot i).state = .delaying →
      (s.slot i).delayTimer = some n → delay.toNat ≤ n →
      ∃ t, exec (.delayExpiry i) s = .next t ∧ Fires s t i .start s.now s.now)

/-- When the arm timer of a slot in WATCHING or GATED has reached the arm timeout, the slot fires with
cause TIMEOUT if FIRE_ON_TIMEOUT is set, and ends TIMED_OUT if not (R25, R26). -/
def Obligations.ArmExpiryFiresOrEnds : Prop :=
  ∀ (s : State) (i : Fin 32) (a : ArmOrder) (n : Nat),
    s.run.runState = .running → (s.slot i).order.kind = .arm a →
    ((∃ w, (s.slot i).state = .watching w) ∨ (s.slot i).state = .gated) →
    (s.slot i).armTimer = some n → a.armTimeout.toNat * 1000 ≤ n →
    (a.fireOnTimeout = true → s.NoEntry i →
      ∃ t, exec (.armExpiry i) s = .next t ∧ Fires s t i .timeout s.now s.now)
    ∧ (a.fireOnTimeout = false →
      ∃ t, exec (.armExpiry i) s = .next t ∧ Ends s t i .timedOut s.now)

/-- A follower takes the oldest event of its gate: at an opening its link is removed and it enters the
watch at the target's fire time (R46, R18); at a loss it ends GATE_LOST at the target's entry to CLOSING
(R47, R56). -/
def Obligations.FollowerOpensOrLosesGate : Prop :=
  ∀ (s : State) (i : Fin 32) (a : ArmOrder) (time : Timestamp) (rest : List GateEvent),
    s.run.runState = .running → (s.slot i).order.kind = .arm a → (s.slot i).state = .gated →
    ((s.slot i).gateEvents = .opening time :: rest → s.NoEntry i →
      ∃ t, exec (.gateOpening i) s = .next t ∧ EntersWatch s t i a time)
    ∧ ((s.slot i).gateEvents = .loss time :: rest →
      ∃ t, exec (.gateLoss i) s = .next t ∧ Ends s t i .gateLost time)

/-! ### Firings and endings -/

/-- While the Post Queue has room it takes the pending FIRED record of a slot as its newest, and the
record leaves the slot (R35, R131); a slot that waited for that alone and has no page to close has its
page condition met at once, and one with a page asks for the close (R54, R57). Nothing else changes but
the model's own notes for R105 (log entry 15). -/
def Obligations.FiredRecordLeavesSlot : Prop :=
  ∀ (s : State) (i : Fin 32) (r : FiredRecord),
    s.Live → s.HasRoom → (s.slot i).pendingFired = some r →
    ∃ z y, { s.slot i with pendingFired := none }.SettlesTo z ∧ z.AskedFrom s.moment y
      ∧ exec (.firedRecordTaken i) s = .next ((s.setSlot i y).posted (.fired r))

/-- A firing whose scans are resolved, whose FIRED record has left and whose page is done is counted; one
that is not the last returns to the watch with a fresh arm timer (R54, R37, R24), and the last one of an
order that ended OK is counted within CLOSING (R57 step 4). -/
def Obligations.FiringCompletionIsCounted : Prop :=
  ∀ (s : State) (i : Fin 32),
    (s.AwaitsCompletion i → s.NoEntry i →
      ∃ t, exec (.firingCompletion i) s = .next t ∧ CompletesFiring s t i)
    ∧ (s.Live → (s.slot i).state = .closing → (s.slot i).endReason = some .ok →
      (s.slot i).handOn = .pageDone → (s.slot i).pendingFired = none →
      exec (.firingCompletion i) s =
        .next (s.setSlot i { s.slot i with firings := (s.slot i).firings + 1
                                           handOn := .completed }))

/-- When a CLOSING slot has handed on its scans, records and page and no follower links to it, its
ORDER_DONE record enters the Post Queue with the values of R58, the slot becomes FREE (R57, R58), and a
fence without an outcome takes OK if that was the last occupied slot (R121). That every field of the
FREE slot is blank is the model's choice (log entry 21). -/
def Obligations.OrderDoneFreesSlot : Prop :=
  ∀ (s : State) (i : Fin 32) (reason : EndReason) (ended : Timestamp),
    let x := s.slot i
    s.Live → s.HasRoom → x.state = .closing → x.endReason = some reason → x.endTime = some ended →
    x.inConversion = false → x.inStaging = 0 → x.pendingFired = none → x.openPage = none →
    x.closingPage = none → (reason = .ok → x.handOn = .completed) →
    (reason ≠ .ok → x.handOn = .pageDone) → (∀ j, ¬ (s.slot j).LinksTo i) →
    ∃ fence,
      ((∀ j, j ≠ i → (s.slot j).state = .free) →
        fence = s.fetch.fence.map fun f => f.takes .ok s.now)
      ∧ ((∃ j, j ≠ i ∧ (s.slot j).state ≠ .free) → fence = s.fetch.fence)
      ∧ exec (.orderDoneTaken i) s =
          .next (({ s.setSlot i Slot.free with fetch.fence := fence } : State).posted
            (.orderDone
              { status := match reason with
                  | .ok => .ok
                  | .cancelled => .cancelled
                  | .halted => .halted
                  | .timedOut => .timedOut
                  | .gateLost => .gateLost
                tag := x.order.tag
                orderNumber := x.order.number
                detail := 0
                firings := BitVec.ofNat 16 x.firings
                pages := x.pagesPosted
                ended := ended
                stored := x.stored
                missed := x.missed
                dropped := x.dropped }))

/-- At each expiry of the interval timer the grid moves on by the interval and one more scan becomes due:
it is inserted when no entry of the slot waits, and counted missed when one does (R64, R66, R67). The
grid stops when the due count reaches the scan count. The count of scans due over the whole order is the
model's own (log entry 29), and the due time in whole microseconds is its choice (log entry 33). -/
def Obligations.IntervalExpiryMakesScanDue : Prop :=
  ∀ (s : State) (i : Fin 32) (n : Nat),
    let x := s.slot i
    let due := min (x.dueCount + 1) 65535
    let exhausted := x.order.scanCount ≠ 0 ∧ due = x.order.scanCount.toNat
    let y := { x with
               dueCount := due
               becameDue := x.becameDue + 1
               intervalTimer := if exhausted then none else some 0
               nextDue := if exhausted then none
                 else x.nextDue.map fun m => m + x.order.interval.toNat }
    s.run.runState = .running → x.state = .running → x.order.interval ≠ 0 →
    x.intervalTimer = some n → x.order.interval.toNat ≤ n →
    (s.NoEntry i →
      exec (.intervalTimerExpiry i) s =
        .next { s.setSlot i y with sched.due := insertDue (s.entryNow i) s.sched.due })
    ∧ (¬ s.NoEntry i → (x.order.scanCount = 0 ∨ x.resolved + 1 < x.order.scanCount.toNat) →
      exec (.intervalTimerExpiry i) s = .next (s.setSlot i y.afterMiss))

/-! ### Scans -/

/-- An insertion puts the entry at its place in grant order and keeps every other entry; and grant order
leaves one order for the same entries, whenever each was inserted (R70, R71). That due times are held in
whole microseconds, so that scans due within one microsecond go by slot number, is the model's choice (log
entry 33). -/
def Obligations.DueQueueKeepsGrantOrder : Prop :=
  (∀ (e : DueEntry) (due : List DueEntry),
    GrantOrdered due → (∀ d ∈ due, d.slot ≠ e.slot) →
    (insertDue e due).Perm (e :: due) ∧ GrantOrdered (insertDue e due))
  ∧ (∀ due due' : List DueEntry, GrantOrdered due → GrantOrdered due' → due.Perm due' → due = due')

/-- The converter is granted exactly when it is idle, the Staging Buffer holds fewer than 4 results and an
entry waits (R72), in RUNNING and STOPPING: the head leaves the queue and its scan starts with the
timestamp and snapshot of the moment and the entries of the order, and its slot is marked (R73, R51). -/
def Obligations.GrantStartsHeadScan : Prop :=
  ∀ s : State,
    (∀ (d : DueEntry) (ds : List DueEntry), s.Live → s.sched.conversion = none →
      s.sched.staging.length < 4 → s.sched.due = d :: ds →
      exec .grant s =
        .next { s.setSlot d.slot { s.slot d.slot with inConversion := true } with
                sched.due := ds
                sched.conversion := some
                  { slot := d.slot
                    firingIndex := d.firingIndex
                    timestamp := s.now
                    snapshot := s.word
                    entries := (s.slot d.slot).order.entries
                    values := []
                    sum := 0
                    made := 0
                    phase := .settling 0 } })
    ∧ (¬ s.Live ∨ s.sched.conversion ≠ none ∨ 4 ≤ s.sched.staging.length ∨ s.sched.due = [] →
      exec .grant s = .next s)

/-- The conduct of an entry: after the settle time of its channel its conversions begin; each takes 2
microseconds and the codes are summed; after the last the value is the sum divided by the averaging
count, rounded down, and the next entry settles (R77, R79). After the last entry the result enters the
Staging Buffer, the converter is idle and the missed run is carried off (R81, R82). The voltage in
whole nanovolts is the model's choice (log entry 13), and so is that the missed run of a CLOSING slot
goes with it whole, where R85 and the end of R81 differ (log entry 31). -/
def Obligations.ConversionRunsEntryByEntry : Prop :=
  ∀ (s : State) (c : Conversion) (entry : ScanEntry) (n : Nat) (nanovolts : Int),
    let x := s.slot c.slot
    let sum := c.sum + (conversionCode nanovolts).toNat
    let value := BitVec.ofNat 14 (sum / entry.averaging.toNat)
    s.Live → s.sched.conversion = some c → c.entries[c.values.length]? = some entry →
    (c.phase = .settling n → (s.run.copy.channels[entry.channel]).settle.toNat ≤ n →
      exec .entrySettled s =
        .next { s with sched.conversion := some { c with phase := .converting 0 } })
    ∧ (c.phase = .converting n → 2 ≤ n →
      (c.made + 1 < entry.averaging.toNat →
        exec (.conversionDone nanovolts) s =
          .next { s with
                  sched.conversion :=
                    some { c with sum := sum, made := c.made + 1, phase := .converting 0 } })
      ∧ (entry.averaging.toNat ≤ c.made + 1 → c.values.length + 1 < c.entries.length →
        exec (.conversionDone nanovolts) s =
          .next { s with
                  sched.conversion :=
                    some { c with values := c.values ++ [value], sum := 0, made := 0,
                                  phase := .settling 0 } })
      ∧ (entry.averaging.toNat ≤ c.made + 1 → c.values.length + 1 = c.entries.length →
        exec (.conversionDone nanovolts) s =
          .next { s.setSlot c.slot { x with inConversion := false
                                            inStaging := x.inStaging + 1
                                            missedRun := 0 } with
                  sched.conversion := none
                  sched.staging := s.sched.staging ++
                    [{ slot := c.slot
                       firingIndex := c.firingIndex
                       timestamp := c.timestamp
                       snapshot := c.snapshot
                       missedBefore := x.missedRun
                       values := c.values ++ [value]
                       work := { arose := s.moment, held := false } }] }))

/-- The code of a voltage: (V + 10 V) × 16384 / 20 V rounded down, 0 at −10 V and below, 16383 at
+10 V × 16383 / 16384 and above, and 8192 at 0 V (R78; the voltage in whole nanovolts is log
entry 13). -/
def Obligations.ConversionCodeRoundsDownAndClamps : Prop :=
  (∀ v : Int, v ≤ -10000000000 → conversionCode v = 0)
  ∧ (∀ v : Int, 10000000000 * 16383 ≤ v * 16384 → conversionCode v = 16383)
  ∧ (∀ v : Int, -10000000000 ≤ v → v < 10000000000 →
      (conversionCode v).toNat * 20000000000 ≤ (v + 10000000000) * 16384
      ∧ (v + 10000000000) * 16384 < ((conversionCode v).toNat + 1) * 20000000000)
  ∧ conversionCode 0 = 8192

/-! ### Pages and the pool -/

/-- A descriptor read (R89) and an order read (R111, R116) are issued for the entry at the card's own
index when the rule's conditions hold, and nothing but the read, its tag and the fetch state changes.
The numbering of tags and the wrap of an entry address at 2^64 are the model's choice (log entries 7
and 28). -/
def Obligations.ReadsAreIssuedAtTheHeads : Prop :=
  ∀ s : State, s.run.runState = .running →
    (s.pages.poolRead = none → s.pages.cache.length < 8 → s.pages.poolHead ≠ s.window.poolTail →
      exec .poolReadIssue s =
        .next { s with
                link.nextTag := s.link.nextTag + 1
                pages.poolRead := some
                  { tag := s.link.nextTag
                    address := s.run.copy.poolBase + BitVec.ofNat 64 (16 * s.pages.poolHead)
                    elapsed := 0
                    refused := !s.link.busMaster } })
    ∧ (s.fetch.state = .idle → s.window.orderTail ≠ s.fetch.head →
        s.run.orderNumber ≠ 0xFFFFFFFF →
      exec .orderReadIssue s =
        .next { s with
                link.nextTag := s.link.nextTag + 1
                fetch.state := .reading
                fetch.read := some
                  { read :=
                      { tag := s.link.nextTag
                        address := s.run.copy.orderBase + BitVec.ofNat 64 (64 * s.fetch.head)
                        elapsed := 0
                        refused := !s.link.busMaster }
                    withdrawn := false } })

/-- The data of a descriptor read advances the pool head (R88); a descriptor whose page address is 0 or no
multiple of 64 is counted in the POOL_BAD record of the Notice Latch with its ident (R90, R134), and any
other joins the cache as its newest and ends a pool-dry episode (R90, R97). -/
def Obligations.DescriptorJoinsCacheOrIsBad : Prop :=
  ∀ (s : State) (tag : Nat) (data : BitVec 128) (r : BusRead),
    let address : BitVec 64 := data.extractLsb' 0 64
    let ident : BitVec 32 := data.extractLsb' 64 32
    let head := (s.pages.poolHead + 1) % s.run.copy.poolSize.toNat
    s.Live → s.pages.poolRead = some r → r.tag = tag → r.refused = false →
    (address = 0 ∨ ¬ 64 ∣ address.toNat →
      exec (.poolReadData tag data) s =
        .next { s with
                pages.poolRead := none
                pages.poolHead := head
                post.badNotice := some (match s.post.badNotice with
                  | none => { code := .poolBad, count := 1, ident := ident, time := s.now }
                  | some n => { n with count := min (n.count + 1) 65535, ident := ident }) })
    ∧ (address ≠ 0 → 64 ∣ address.toNat →
      exec (.poolReadData tag data) s =
        .next { s with
                pages.poolRead := none
                pages.poolHead := head
                pages.cache := s.pages.cache ++ [{ address := address, ident := ident }]
                pages.dry := false })

/-- The oldest result is stored in its slot's open page when it fits, and in a page opened from the oldest
cached descriptor when the slot has none (R94, R95); then the slot takes the resolution (R51, R53,
R65). A stalled Page Writer takes no result, nor does one that has older work of a stall left; without
these it takes it (R105). Which work counts as such, how writes are kept, the wrap of an address at 2^64,
and that a scan which the resolution makes due is inserted before a grant (R75) are the model's choice
(log entries 15, 8, 9, 28 and 30). -/
def Obligations.ResultIsStored : Prop :=
  ∀ (s : State) (r : ScanResult) (rest : List ScanResult),
    let x := s.slot r.slot
    s.Live → s.sched.staging = r :: rest →
    (¬ s.PageWriterTakes r.work.arose → exec .resultTaken s = .next s)
    ∧ (s.PageWriterTakes r.work.arose →
      (x.state = .running → x.order.interval = 0 → s.NoEntry r.slot) →
      (x.state = .running → x.order.scanCount ≠ 0 → x.resolved < x.dueCount) →
      (∀ p, x.openPage = some p →
          p.fill + (12 + 2 * r.values.length + 3) / 4 * 4 ≤ s.run.copy.pageSize.toNat →
        ∃ t, exec .resultTaken s = .next t
          ∧ ScanResolved (s.afterStore r p s.pages.cache) t r.slot)
      ∧ (∀ d ds, x.openPage = none → s.pages.cache = d :: ds →
        ∃ t, exec .resultTaken s = .next t
          ∧ ScanResolved
              (s.afterStore r { descriptor := d, fill := 16, scans := 0, first := 0, age := none,
                                expired := none } ds) t r.slot))

/-- A result whose slot has no open page is dropped when the cache is empty: its misses are carried, the
drop is counted, a pool-dry episode begins or goes on, and the slot takes the resolution (R94, R96, R97,
R134, R51). While a close is under way the result stays in staging (R105). Which work a stall has held
up, and that a scan which the resolution makes due is inserted before a grant (R75), are the model's
choice (log entries 15 and 30). -/
def Obligations.ResultIsDroppedWithoutPage : Prop :=
  ∀ (s : State) (r : ScanResult) (rest : List ScanResult),
    let x := s.slot r.slot
    s.Live → s.sched.staging = r :: rest →
    ((∃ j, (s.slot j).closingPage ≠ none) → exec .resultTaken s = .next s)
    ∧ (s.PageWriterTakes r.work.arose →
      (x.state = .running → x.order.interval = 0 → s.NoEntry r.slot) →
      (x.state = .running → x.order.scanCount ≠ 0 → x.resolved < x.dueCount) →
      x.openPage = none → s.pages.cache = [] →
      ∃ t, exec .resultTaken s = .next t ∧ ScanResolved (s.afterDrop r) t r.slot)

/-- The four ways in which a close is asked for: a result that does not fit closes the page as full and
stays in staging (R100); a slot's request closes its open page with the flags of Table 5-6, or is met at
once without one (R101); an expired age timer closes it FLUSHED (R102). The page becomes the closing page
(R98) and nothing else changes. A stalled Page Writer begins no other close and takes no flush expiry,
nor does one that has older work of a stall left (R105); which work counts as such is the model's choice
(log entry 15). -/
def Obligations.PageCloseBegins : Prop :=
  ∀ (s : State) (i : Fin 32), s.Live →
    (∀ (r : ScanResult) (rest : List ScanResult) (p : OpenPage),
      s.sched.staging = r :: rest → r.slot = i → (s.slot i).openPage = some p →
      s.run.copy.pageSize.toNat < p.fill + (12 + 2 * r.values.length + 3) / 4 * 4 →
      (s.PageWriterTakes r.work.arose →
        exec .resultTaken s =
          .next (s.closing i p { endOfFiring := false, endOfOrder := false, flushed := false,
                                 unused := false } false))
      ∧ (¬ s.PageWriterTakes r.work.arose → exec .resultTaken s = .next s))
    ∧ (∀ p : OpenPage, (s.slot i).Asks → (s.slot i).openPage = some p →
      (s.PageWriterTakes (s.askedAt i) →
        exec (.pageCloseRequest i) s =
          .next (s.closing i p
            { endOfFiring := (s.slot i).state = .running ∨ (s.slot i).endReason = some .ok
              endOfOrder := (s.slot i).state = .closing
              flushed := false
              unused := false } true))
      ∧ (¬ s.PageWriterTakes (s.askedAt i) → exec (.pageCloseRequest i) s = .next s))
    ∧ ((s.slot i).Asks → (s.slot i).openPage = none → (s.slot i).closingPage = none →
      exec (.pageCloseRequest i) s =
        .next (s.setSlot i { s.slot i with handOn := .pageDone, requestSince := none }))
    ∧ (∀ (p : OpenPage) (w : WorkItem), (s.slot i).openPage = some p → p.expired = some w →
      (s.PageWriterTakes w.arose →
        exec (.flushExpiry i) s =
          .next (s.closing i p { endOfFiring := false, endOfOrder := false, flushed := true,
                                 unused := false } false))
      ∧ (¬ s.PageWriterTakes w.arose → exec (.flushExpiry i) s = .next s))

/-- The close step: with no pending FIRED record and room in the Post Queue the header is written to the
page address, the PAGE record enters the Post Queue, the sequence and the pages posted advance, the
closing page is gone, and a close that the slot asked for meets its condition, as does any close after
which the slot asks and has no page (R98, R99, R101, R54). A close that had to wait ends a stall, and the
work that waits is marked to be taken oldest first (R105). With a pending FIRED record or no room the
close waits (R98). How the order of the work and the writes are kept is the model's choice (log entries
15, 8 and 9). -/
def Obligations.PageCloseWritesHeaderThenPosts : Prop :=
  ∀ (s : State) (i : Fin 32) (c : ClosingPage),
    let u := s.afterStall
    let x := u.slot i
    s.Live → (s.slot i).closingPage = some c →
    (s.HasRoom → (s.slot i).pendingFired = none →
      ∃ y, { x with
             closingPage := none
             pageSequence := x.pageSequence + 1
             pagesPosted := x.pagesPosted + 1
             handOn := if c.requested then .pageDone else x.handOn }.SettlesTo y
        ∧ exec (.pageClose i) s =
            .next (({ u.setSlot i y with
                     link.undelivered := s.undeliveredAfter .page
                     link.issued := s.link.issued ++
                       [.memory c.page.descriptor.address
                         (pageHeaderBytes x.order.tag x.pageSequence (BitVec.ofNat 16 c.page.scans)
                           c.flags c.page.first)] } : State).posted
              (.page { tag := x.order.tag
                       orderNumber := x.order.number
                       ident := c.page.descriptor.ident
                       bytesUsed := BitVec.ofNat 32 c.page.fill
                       sequence := x.pageSequence
                       scans := BitVec.ofNat 16 c.page.scans
                       flags := c.flags })))
    ∧ (¬ s.HasRoom ∨ (s.slot i).pendingFired ≠ none → exec (.pageClose i) s = .next s)

/-- In STOPPING, with every slot FREE, no pool read in flight and room in the Post Queue, the oldest
cached descriptor returns to the host in a PAGE record with the flag UNUSED (R106). While a slot is
occupied, a read is in flight or the queue is full, nothing is returned. -/
def Obligations.UnusedDescriptorReturns : Prop :=
  ∀ (s : State) (d : Descriptor) (ds : List Descriptor), s.pages.cache = d :: ds →
    (s.run.runState = .stopping → (∀ j, (s.slot j).state = .free) → s.pages.poolRead = none →
        s.HasRoom →
      exec .unusedReturn s =
        .next (({ s with pages.cache := ds } : State).posted
          (.page { tag := 0, orderNumber := 0, ident := d.ident, bytesUsed := 0,
                   sequence := 0, scans := 0,
                   flags := { endOfFiring := false, endOfOrder := false,
                              flushed := false, unused := true } })))
    ∧ ((∃ j, (s.slot j).state ≠ .free) ∨ s.pages.poolRead ≠ none ∨ ¬ s.HasRoom →
      exec .unusedReturn s = .next s)

/-! ### Completions -/

/-- The Post Queue takes the POOL_DRY record of the Notice Latch, and the POOL_BAD record only when no
POOL_DRY record is held; the record leaves the latch (R135). -/
def Obligations.NoticeLeavesLatchDryFirst : Prop :=
  ∀ (s : State) (n : NoticeRecord), s.Live → s.HasRoom →
    (s.post.dryNotice = some n →
      exec .noticeTaken s =
        .next (({ s with post.dryNotice := none } : State).posted (.notice n)))
    ∧ (s.post.dryNotice = none → s.post.badNotice = some n →
      exec .noticeTaken s =
        .next (({ s with post.badNotice := none } : State).posted (.notice n)))

/-- While fewer than size − 1 records are unreleased, the oldest record is written to the entry at the
tail with the lap and the order head of the moment; the tail advances and the lap is inverted at the wrap
(R128, R129, R132); the write counts for moderation and signals DONE_READY as R138 says; and a NOTICE
record sets the flag NOTICE (R140). At size − 1 nothing is written (R133). How writes are kept, and the
wrap of an entry address at 2^64, are the model's choice (log entries 8, 9 and 28). -/
def Obligations.RecordWriteAdvancesTailAndLap : Prop :=
  ∀ (s : State) (r : CompletionRecord) (rest : List CompletionRecord),
    let size := s.run.copy.doneSize.toNat
    let unreleased := (s.post.tail + size - s.window.doneHead) % size
    let wraps := s.post.tail + 1 = size
    let signals := s.run.copy.moderationDelay = 0
      ∨ s.post.gathered + 1 = s.run.copy.moderationCount.toNat
    s.Live → s.post.queue = r :: rest → s.post.tail < size →
    (unreleased + 1 < size →
      let written :=
        { s with
          post.queue := rest
          post.tail := if wraps then 0 else s.post.tail + 1
          post.lap := if wraps then !s.post.lap else s.post.lap
          post.gathered := if signals then 0 else s.post.gathered + 1
          post.timer := if signals then none
            else if s.post.gathered = 0 then some 0 else s.post.timer
          link.undelivered := s.undeliveredAfter .completion
          link.issued := s.link.issued ++
            [.memory (s.run.copy.doneBase + BitVec.ofNat 64 (32 * s.post.tail))
              (r.bytes s.post.lap s.fetch.head)] }
      let signalled := if signals then written.flagged 0 else written
      exec .recordWrite s = .next (match r with
        | .notice _ => signalled.flagged 1
        | .orderDone _ | .fired _ | .page _ => signalled))
    ∧ (size ≤ unreleased + 1 → exec .recordWrite s = .next s)

/-- When the moderation timer reaches the moderation delay, DONE_READY is signalled: the flag is set, the
counter is 0 and the timer is stopped (R138, R140, R141). -/
def Obligations.ModerationExpirySignals : Prop :=
  ∀ (s : State) (n : Nat),
    s.Live → s.post.timer = some n → s.run.copy.moderationDelay.toNat ≤ n →
    exec .moderationTimerExpiry s =
      .next ({ s with post.gathered := 0, post.timer := none }.flagged 0)

/-! ### Orders -/

/-- The data of an order read is held and validated in RUNNING (R111, R113), discarded there with the
fetch state IDLE if its entry was withdrawn (R112), and discarded in STOPPING (R124). -/
def Obligations.OrderDataIsHeldOrDiscarded : Prop :=
  ∀ (s : State) (tag : Nat) (data : BitVec 512) (r : OrderRead),
    s.fetch.read = some r → r.read.tag = tag → r.read.refused = false →
    (s.run.runState = .running → r.withdrawn = false →
      exec (.orderReadData tag data) s =
        .next { s with
                fetch.read := none
                fetch.state := .holding
                fetch.held := some { image := data, detail := validate s.run.copy.channels data } })
    ∧ (s.run.runState = .running → r.withdrawn = true →
      exec (.orderReadData tag data) s =
        .next { s with fetch.read := none, fetch.state := .idle })
    ∧ (s.run.runState = .stopping →
      exec (.orderReadData tag data) s = .next { s with fetch.read := none })

/-- The detail code of an order is that of the first check of Table 6-3 that its bytes fail, and 0 when
they fail none (R113, R114, R160, Tables 9-3 to 9-5). -/
def Obligations.ValidationNamesFirstFailedCheck : Prop :=
  ∀ (channels : Vector Channel 12) (o : OrderImage),
    let kind := (byteOf o 0x00).toNat
    let takesSlot := kind = 1 ∨ kind = 2
    let inCount := fun k => k < (byteOf o 0x16).toNat
    let channel := fun k => (byteOf o (0x20 + 2 * k)).toNat
    validate channels o =
      if kind = 0 ∨ 5 < kind then 1
      else if takesSlot ∧ 3 < (byteOf o 0x04).toNat then 2
      else if (byteOf o 0x01).toNat ≥ 8
          ∨ (kind = 2 ∧ ((byteOf o 0x01).getLsbD 1 = true ∨ (byteOf o 0x01).getLsbD 2 = true))
          ∨ (¬ takesSlot ∧ byteOf o 0x01 ≠ 0) then 3
      else if (kind = 1 ∨ kind = 4) ∧ byteOf o 0x08 = 0 ∧ byteOf o 0x09 = 0 then 4
      else if takesSlot ∧ (byteOf o 0x16 = 0 ∨ 8 < (byteOf o 0x16).toNat) then 5
      else if takesSlot ∧ ∃ k < 8, inCount k ∧ 11 < channel k then 6
      else if takesSlot ∧ ∃ k < 8, inCount k
          ∧ ∃ c : Fin 12, c.val = channel k ∧ channels[c].enabled = false then 7
      else if takesSlot ∧ ∃ k < 8, inCount k
          ∧ (byteOf o (0x21 + 2 * k)).toNat ∉ [1, 2, 4, 8] then 8
      else if takesSlot ∧ byteOf o 0x14 = 0 ∧ byteOf o 0x15 = 0 ∧ byteOf o 0x0D ≠ 0 then 9
      else if kind = 2 ∧ byteOf o 0x0D ≠ 0 then 10
      else 0

/-- A held valid ARM is taken with the lowest-numbered FREE slot: refused TAG_BUSY while its tag is held
(R42), refused GATE_LOST when no slot that is not CLOSING holds its gate tag (R44), admitted to GATED on
its target (R43, R44), or admitted to the watch (R43, R18, R24); the head advances and the order has the
next number (R41, R115, R116, R118). -/
def Obligations.ArmIsAdmittedOrRefused : Prop :=
  ∀ (s : State) (h : HeldOrder) (i : Fin 32) (a : ArmOrder),
    let copy := h.image.copy (s.run.orderNumber + 1)
    s.MayTake h → s.HasRoom → h.detail = 0 → h.image.kind = 1 → s.LowestFree i →
    copy.kind = .arm a →
    ((∃ j, s.Holds j copy.tag) → exec .arm s = .next (s.answered copy.tag .tagBusy 0))
    ∧ ((∀ j, ¬ s.Holds j copy.tag) →
      (∀ gate, a.gateTag = some gate → (∀ j, s.Holds j gate → (s.slot j).state = .closing) →
        exec .arm s = .next (s.answered copy.tag .gateLost 0))
      ∧ (∀ gate k, TagsDistinct s → a.gateTag = some gate → s.Holds k gate →
          (s.slot k).state ≠ .closing →
        exec .arm s =
          .next (s.afterTaking.setSlot i
            { Slot.holding copy .gated with gateTarget := some k, armTimer := a.timerStart }))
      ∧ (a.gateTag = none → s.NoEntry i →
        ∃ t, exec .arm s = .next t
          ∧ EntersWatch
              (s.afterTaking.setSlot i
                { Slot.holding copy (.watching .trueWait) with armTimer := a.timerStart })
              t i a s.now))

/-- A held valid SAMPLE is taken with the lowest-numbered FREE slot: refused TAG_BUSY while its tag is
held (R42), admitted to DELAYING with its delay timer from 0, or fired at once with cause START when its
start delay is 0 (R43, R49, R118). -/
def Obligations.SampleIsAdmittedOrRefused : Prop :=
  ∀ (s : State) (h : HeldOrder) (i : Fin 32) (delay : BitVec 24),
    let copy := h.image.copy (s.run.orderNumber + 1)
    s.MayTake h → s.HasRoom → h.detail = 0 → h.image.kind = 2 → s.LowestFree i →
    copy.kind = .sample delay →
    ((∃ j, s.Holds j copy.tag) → exec .sample s = .next (s.answered copy.tag .tagBusy 0))
    ∧ ((∀ j, ¬ s.Holds j copy.tag) →
      (delay ≠ 0 →
        exec .sample s =
          .next (s.afterTaking.setSlot i { Slot.holding copy .delaying with delayTimer := some 0 }))
      ∧ (delay = 0 → s.NoEntry i →
        ∃ t, exec .sample s = .next t
          ∧ Fires (s.afterTaking.setSlot i (Slot.holding copy .delaying)) t i .start s.now s.now))

/-- A held valid CANCEL is answered OK and ends the slot that holds its target tag CANCELLED, unless that
slot is CLOSING or no slot holds the tag: then it is answered NO_TARGET and nothing ends (R59, R119). The
answer precedes the target's own record. A firing of the target whose last record the Post Queue has
accepted completes and is counted before the slot takes the cancel (R61, as read in log entry 18). That
a close request which already waits keeps its moment is the model's choice (log entry 32). -/
def Obligations.CancelEndsTargetOrFindsNone : Prop :=
  ∀ (s : State) (h : HeldOrder),
    let target := h.image.targetTag
    s.MayTake h → s.HasRoom → h.detail = 0 → h.image.kind = 3 →
    (∀ k, TagsDistinct s → s.Holds k target → (s.slot k).state ≠ .closing →
      (¬ s.AwaitsCompletion k →
        ∃ t, exec .cancel s = .next t ∧ Ends (s.answered h.image.tag .ok 0) t k .cancelled s.now)
      ∧ (s.AwaitsCompletion k → s.NoEntry k →
        ∃ m t, CompletesFiring s m k ∧ exec .cancel s = .next t
          ∧ Ends (m.answered h.image.tag .ok 0) t k .cancelled s.now))
    ∧ ((∀ j, s.Holds j target → (s.slot j).state = .closing) →
      exec .cancel s = .next (s.answered h.image.tag .noTarget 0))

/-- A held valid LINES is answered OK, and each line in its mask takes its debounce time by Table 1-3; the
other lines are unchanged, and the changes of the word are one line event at the moment of taking
(R11, R120). -/
def Obligations.LinesSetsDebounceTimes : Prop :=
  ∀ (s : State) (h : HeldOrder),
    s.MayTake h → s.HasRoom → h.detail = 0 → h.image.kind = 4 →
    ∃ t v, exec .lines s = .next t
      ∧ LinesBecome (s.answered h.image.tag .ok 0) t v false
      ∧ ∀ l : Fin 16,
          (h.image.lineMask.getLsbD l = true →
            v[l] = s.lines.lines[l].retimed h.image.debounce)
          ∧ (h.image.lineMask.getLsbD l = false → v[l] = s.lines.lines[l])

/-- A held valid FENCE is taken without room in the Post Queue: it waits, with its limit timer from 0 when
the limit is not 0, unless every slot is FREE, which gives the outcome OK at once. The expiry of the limit
gives TIMED_OUT. Once the outcome is set and the Post Queue has room, the record enters it, the fence is
gone, and in RUNNING fetching goes on (R121, R126). -/
def Obligations.FenceWaitsForItsOutcome : Prop :=
  (∀ (s : State) (h : HeldOrder),
    s.MayTake h → h.detail = 0 → h.image.kind = 5 →
    let fence : Fence :=
      { tag := h.image.tag
        orderNumber := s.run.orderNumber + 1
        limit := h.image.fenceLimit
        timer := if h.image.fenceLimit = 0 then none else some 0
        outcome := none }
    ((∃ j, (s.slot j).state ≠ .free) →
      exec .fence s =
        .next { s.afterTaking with fetch.state := .fenced, fetch.fence := some fence })
    ∧ ((∀ j, (s.slot j).state = .free) →
      exec .fence s =
        .next { s.afterTaking with
                fetch.state := .fenced
                fetch.fence := some { fence with timer := none, outcome := some (.ok, s.now) } }))
  ∧ (∀ (s : State) (f : Fence) (n : Nat),
    s.Live → s.fetch.fence = some f → f.outcome = none → f.timer = some n →
    f.limit.toNat * 1000 ≤ n →
    exec .fenceLimitExpiry s =
      .next { s with
              fetch.fence := some { f with timer := none, outcome := some (.timedOut, s.now) } })
  ∧ (∀ (s : State) (f : Fence) (status : Status) (ended : Timestamp),
    s.Live → s.HasRoom → s.fetch.fence = some f → f.outcome = some (status, ended) →
    exec .fenceDoneTaken s =
      .next (({ s with
                fetch.fence := none
                fetch.state := if s.run.runState = .running then .idle
                  else s.fetch.state } : State).posted
        (.orderDone { status := status, tag := f.tag, orderNumber := f.orderNumber,
                      detail := 0, firings := 0, pages := 0, ended := ended, stored := 0,
                      missed := 0, dropped := 0 })))

/-- An invalid order is taken and answered at once with status BAD_ORDER and its detail code; it takes no
slot, changes no line and cancels nothing (R115, R116, R117, R126). -/
def Obligations.InvalidOrderIsAnswered : Prop :=
  ∀ (s : State) (h : HeldOrder), s.MayTake h → s.HasRoom → h.detail ≠ 0 →
    exec .badOrder s = .next (s.answered h.image.tag .badOrder h.detail)

/-! ### Run control -/

/-- RUN written 1: in STOPPED the start begins, with the host indices 0, and ends at once for an address
that is no multiple of 64 or issues the setup read (R145); in STARTING RUN is 1 (R147); in RUNNING and
FAULTED nothing changes; in STOPPING the write is refused (R157, R153). The numbering of read tags is the
model's choice (log entry 7). -/
def Obligations.RunWrittenOneBeginsStart : Prop :=
  ∀ s : State,
    let address : BitVec 64 := s.window.setupHi ++ s.window.setupLo
    let begun := { s with
                   run.runState := .starting
                   run.faultCode := .none
                   run.setupResult := .ok
                   window.orderTail := 0
                   window.poolTail := 0
                   window.doneHead := 0
                   window.run := true }
    let after := exec .runWritten1 s
    (s.run.runState = .stopped → ¬ 64 ∣ address.toNat →
      after = .next (begun.startEnded .badAlignment))
    ∧ (s.run.runState = .stopped → 64 ∣ address.toNat →
      after = .next { begun with
                      run.setupRead := some { tag := s.link.nextTag, address := address,
                                              elapsed := 0, refused := !s.link.busMaster }
                      link.nextTag := s.link.nextTag + 1 })
    ∧ (s.run.runState = .starting → after = .next { s with window.run := true })
    ∧ (s.run.runState = .running ∨ s.run.runState = .faulted → after = .next s)
    ∧ (s.run.runState = .stopping → after = .next (s.flagged 4))

/-- RUN written 0 in RUNNING begins the stop: firings whose last record the Post Queue has accepted
complete first (R61; several of one moment in slot order, log entry 18); then fetching is OFF, the held
order is discarded, a fence without an outcome takes HALTED (R124), every slot in GATED, WATCHING,
DELAYING or RUNNING ends HALTED, or GATE_LOST for a follower named by `lossFirst` that has no opening to
take first (R60, R48, log entry 5), and every waiting entry of such a slot is removed and counted missed
(R56, R149). All else goes on. That a close request which already waits keeps its moment is the model's
choice (log entry 32). -/
def Obligations.RunWrittenZeroHaltsEverySlot : Prop :=
  ∀ (s : State) (lossFirst : BitVec 32), s.run.runState = .running →
    (∀ j, s.AwaitsCompletion j → s.NoEntry j) →
    ∃ m t, CompleteFirings (List.finRange 32) s m ∧ exec (.runWritten0 lossFirst) s = .next t
      ∧ ((∀ j, ¬ s.AwaitsCompletion j) → m = s)
      ∧ (∀ j, ((m.slot j).state = .free ∨ (m.slot j).state = .closing) → t.slot j = m.slot j)
      ∧ (∀ j, (m.slot j).state ≠ .free → (m.slot j).state ≠ .closing →
          (lossFirst.getLsbD j = true ∧ (m.slot j).state = .gated
              ∧ (∀ time, GateEvent.opening time ∉ (m.slot j).gateEvents) →
            (m.endedRecord j .gateLost s.now).AskedFrom s.moment (t.slot j))
          ∧ (¬ (lossFirst.getLsbD j = true ∧ (m.slot j).state = .gated
              ∧ ∀ time, GateEvent.opening time ∉ (m.slot j).gateEvents) →
            (m.endedRecord j .halted s.now).AskedFrom s.moment (t.slot j)))
      ∧ t = { m with
              run.runState := .stopping
              window.run := false
              fetch.state := .off
              fetch.held := none
              fetch.fence := s.fetch.fence.map fun f => f.takes .halted s.now
              slots := t.slots
              sched.due := m.sched.due.filter fun d =>
                (m.slot d.slot).state = .free ∨ (m.slot d.slot).state = .closing }

/-- RUN written 0 outside RUNNING: no effect but RUN 0 in STOPPED and STARTING (R157, R147); refused in
STOPPING (R157); and in FAULTED the card enters STOPPED with everything kept at the fault discarded, the
heads, the tail and the lap kept, and the lines resumed as one change (R153, R13, R125, R142). That the
pool head is kept there, that every field of a FREE slot is blank, and that reports of writes not
delivered lapse are the model's choice (log entries 25, 21 and 9), as is its own note for R105 (log
entry 15). -/
def Obligations.RunWrittenZeroLeavesFaulted : Prop :=
  ∀ (s : State) (lossFirst : BitVec 32),
    let after := exec (.runWritten0 lossFirst) s
    (s.run.runState = .stopped ∨ s.run.runState = .starting →
      after = .next { s with window.run := false })
    ∧ (s.run.runState = .stopping → after = .next (s.flagged 4))
    ∧ (s.run.runState = .faulted →
      ∃ t v, after = .next t
        ∧ (∀ l : Fin 16, v[l] = s.lines.lines[l].resumed)
        ∧ LinesBecome
            { s with
              run.runState := .stopped
              run.setupRead := none
              window.run := false
              fetch := { state := .off, head := s.fetch.head, read := none, held := none,
                         fence := none }
              slots := Vector.replicate 32 Slot.free
              sched := { due := [], conversion := none, staging := [] }
              pages := { poolHead := s.pages.poolHead, poolRead := none, cache := [],
                         dry := false, closeWaits := false }
              post := { tail := s.post.tail, lap := s.post.lap, queue := [], dryNotice := none,
                        badNotice := none, gathered := 0, timer := none }
              link.undelivered := []
              lines.latest := none } t v false)

/-- A host reset gives every block its reset values in every run state, keeps the lines, the Setup Record
copy and the configuration space, and lets frozen lines resume (R154, R14, R13). A power-on and a link
reset also clear the copy and the enables and start the lines afresh from debounce times and levels of 0,
with every high input followed at once (R155, R14, R5). That the list of issued writes and the next read
tag survive (log entries 8 and 7), that what is not set in the copy is zeros (log entry 12), that every
field of a FREE slot is blank (log entry 21), that reports of writes not delivered lapse (log entry 9),
and the notes for due times and R105 (log entries 6 and 15) are the model's choice. -/
def Obligations.ResetsGiveResetValues : Prop :=
  (∀ s : State, s.run.runState ≠ .faulted → exec .hostReset s = .next s.resetValues)
  ∧ (∀ s : State, s.run.runState = .faulted →
      ∃ t v, exec .hostReset s = .next t
        ∧ (∀ l : Fin 16, v[l] = s.lines.lines[l].resumed)
        ∧ LinesBecome s.resetValues t v false)
  ∧ (∀ (s : State) (c : Instr), c = .powerOnReset ∨ c = .linkReset →
      ∃ t v w, exec c s = .next t
        ∧ (∀ l : Fin 16, v[l] = { raw := s.lines.lines[l].raw, debounce := 0, qualifying := none,
                                  level := false })
        ∧ (∀ l : Fin 16, w[l] = { raw := s.lines.lines[l].raw, debounce := 0, qualifying := none,
                                  level := s.lines.lines[l].raw })
        ∧ LinesBecome
            { s.resetValues with
              lines.lines := v
              run.copy := SetupCopy.cleared
              link.busMaster := false
              link.msi := false } t w false)

/-! ### Events and the register window -/

/-- A 32-bit write to EVENTS clears exactly the flags written with a 1 (R140), and one to EVENT_MASK
replaces the enables, in every run state (R141, R156); the message is sent exactly when the set of active
flags goes from empty to non-empty with MSI enabled (R141). Another width is refused and sets
WRITE_REFUSED (R156). The list in which the message is kept is the model's choice (log entry 8). -/
def Obligations.EventWritesClearAndEnable : Prop :=
  ∀ (s : State) (width : AccessWidth) (value : BitVec 32),
    (width = .bits32 →
      exec (.eventsWrite width value) s =
        .next (s.eventsBecome (s.events.flags &&& ~~~(value.setWidth 5)) s.events.mask)
      ∧ exec (.eventMaskWrite width value) s =
        .next (s.eventsBecome s.events.flags (value.setWidth 5)))
    ∧ (width ≠ .bits32 →
      exec (.eventsWrite width value) s = .next (s.flagged 4)
      ∧ exec (.eventMaskWrite width value) s = .next (s.flagged 4))

/-- Writes to ORDER_TAIL and POOL_TAIL: refused in STOPPED and FAULTED, only 0 accepted in STARTING, and
in RUNNING and STOPPING every value below the ring size accepted (R158). A new ORDER_TAIL equal to the
order head withdraws the entry read or held there (R112). -/
def Obligations.TailWritesAreChecked : Prop :=
  ∀ (s : State) (value : BitVec 32),
    let v := value.toNat
    let orderTail := exec (.orderTailWrite value) s
    let poolTail := exec (.poolTailWrite value) s
    (s.run.runState = .stopped ∨ s.run.runState = .faulted →
      orderTail = .next (s.flagged 4) ∧ poolTail = .next (s.flagged 4))
    ∧ (s.run.runState = .starting →
      (v ≠ 0 → orderTail = .next (s.flagged 4) ∧ poolTail = .next (s.flagged 4))
      ∧ (v = 0 → orderTail = .next { s with window.orderTail := 0 }
          ∧ poolTail = .next { s with window.poolTail := 0 }))
    ∧ (s.Live →
      (s.run.copy.poolSize.toNat ≤ v → poolTail = .next (s.flagged 4))
      ∧ (v < s.run.copy.poolSize.toNat → poolTail = .next { s with window.poolTail := v })
      ∧ (s.run.copy.orderSize.toNat ≤ v → orderTail = .next (s.flagged 4))
      ∧ (v < s.run.copy.orderSize.toNat →
        (v = s.fetch.head → s.fetch.state = .reading →
          orderTail = .next { s with
                              window.orderTail := v
                              fetch.read := s.fetch.read.map fun r => { r with withdrawn := true } })
        ∧ (v = s.fetch.head → s.fetch.state = .holding →
          orderTail = .next { s with
                              window.orderTail := v
                              fetch.held := none
                              fetch.state := .idle })
        ∧ (v ≠ s.fetch.head ∨ (s.fetch.state ≠ .reading ∧ s.fetch.state ≠ .holding) →
          orderTail = .next { s with window.orderTail := v })))

/-- A write to DONE_HEAD in RUNNING and STOPPING is accepted when its value is below the size and lies, as
counted forward from the old one, at most as far as the completion tail, and refused otherwise (R130,
R158); in STARTING only 0 is accepted, and in STOPPED and FAULTED nothing. -/
def Obligations.DoneHeadReleasesWrittenRecords : Prop :=
  ∀ (s : State) (value : BitVec 32),
    let v := value.toNat
    let size := s.run.copy.doneSize.toNat
    let after := exec (.doneHeadWrite value) s
    let forward := fun k => (k + size - s.window.doneHead) % size
    (s.run.runState = .stopped ∨ s.run.runState = .faulted → after = .next (s.flagged 4))
    ∧ (s.run.runState = .starting → v ≠ 0 → after = .next (s.flagged 4))
    ∧ (s.run.runState = .starting → v = 0 → after = .next { s with window.doneHead := 0 })
    ∧ (s.Live → v < size → forward v ≤ forward s.post.tail →
        after = .next { s with window.doneHead := v })
    ∧ (s.Live → (size ≤ v ∨ forward s.post.tail < forward v) → after = .next (s.flagged 4))

/-- A REGISTER_WRITE stores SETUP_LO and SETUP_HI in 32 bits in every run state; a write of another width,
of an unaligned offset, of a read-only register or of an offset without one is refused: nothing changes
and WRITE_REFUSED is set (R156). -/
def Obligations.RegisterWriteStoresOrRefuses : Prop :=
  ∀ (s : State) (offset : BitVec 6) (width : AccessWidth) (value : BitVec 32),
    let after := exec (.registerWrite offset width value) s
    (width = .bits32 → offset = 0x14 → after = .next { s with window.setupLo := value })
    ∧ (width = .bits32 → offset = 0x18 → after = .next { s with window.setupHi := value })
    ∧ (width ≠ .bits32 ∨ ¬ 4 ∣ offset.toNat ∨ offset ∈ [0x00, 0x08, 0x28, 0x2C]
        ∨ 0x30 ≤ offset.toNat → after = .next (s.flagged 4))

/-- What the window reads: the fields of STATUS (R159), the line word with L0 in bit 0 (R10), the
registers as held, bits that no register names and offsets without a register as 0, and 0 for an access
of another width or an unaligned one (R156). A write of the configuration space sets the two enables and
nothing else (R141, R151). That a read is a function of the state is the model's choice (log
entry 22). -/
def Obligations.WindowReadsWhatTheCardHolds : Prop :=
  (∀ s : State,
    s.readWindow 0x00 .bits32 = 0x0A160001
    ∧ s.readWindow 0x04 .bits32 = (if s.window.run then 1 else 0)
    ∧ ((s.readWindow 0x08 .bits32).extractLsb' 0 3).toNat =
        (match s.run.runState with
          | .stopped => 0
          | .starting => 1
          | .running => 2
          | .stopping => 3
          | .faulted => 4)
    ∧ ((s.readWindow 0x08 .bits32).extractLsb' 8 3).toNat =
        (match s.run.faultCode with
          | .none => 0
          | .fetchError => 1
          | .poolError => 2
          | .pageError => 3
          | .postError => 4
          | .linkDown => 5)
    ∧ ((s.readWindow 0x08 .bits32).extractLsb' 16 4).toNat =
        (match s.run.setupResult with
          | .ok => 0
          | .readError => 1
          | .badAlignment => 2
          | .badRingSize => 3
          | .badPageSize => 4
          | .badModeration => 5
          | .badSettle => 6)
    ∧ s.readWindow 0x08 .bits32 &&& 0xFFF0F8F8 = 0
    ∧ s.readWindow 0x0C .bits32 = s.events.flags.setWidth 32
    ∧ s.readWindow 0x10 .bits32 = s.events.mask.setWidth 32
    ∧ s.readWindow 0x14 .bits32 = s.window.setupLo
    ∧ s.readWindow 0x18 .bits32 = s.window.setupHi
    ∧ s.readWindow 0x1C .bits32 = BitVec.ofNat 32 s.window.orderTail
    ∧ s.readWindow 0x20 .bits32 = BitVec.ofNat 32 s.window.poolTail
    ∧ s.readWindow 0x24 .bits32 = BitVec.ofNat 32 s.window.doneHead
    ∧ s.readWindow 0x28 .bits32 = BitVec.ofNat 32 s.fetch.head
    ∧ (∀ l : Fin 16, (s.readWindow 0x2C .bits32).getLsbD l = s.lines.lines[l].level)
    ∧ (∀ k, 16 ≤ k → (s.readWindow 0x2C .bits32).getLsbD k = false)
    ∧ (∀ (offset : BitVec 6) (width : AccessWidth),
        width ≠ .bits32 ∨ ¬ 4 ∣ offset.toNat ∨ 0x30 ≤ offset.toNat →
        s.readWindow offset width = 0))
  ∧ (∀ (s : State) (busMaster msi : Bool),
    exec (.configurationSpaceWrite busMaster msi) s =
      .next { s with link.busMaster := busMaster, link.msi := msi })

/-! ### Starts, faults and the stop -/

/-- The data of the setup read: with RUN 0 the start ends in STOPPED and the data is not used (R147); a
record that fails a check of Table 8-4 gives the first such setup result (R146); and a record that passes
becomes the copy, the run's structures are empty, and the card enters RUNNING with every debounce time
loaded as by a LINES order naming all lines (R148, R12, R11). That every field of a FREE slot is blank
(log entry 21), that reports of writes not delivered lapse (log entry 9), and the notes for due times and
R105 (log entries 6 and 15) are the model's choice. -/
def Obligations.SetupDataStartsRunOrEndsStart : Prop :=
  ∀ (s : State) (tag : Nat) (data : BitVec 1024) (r : BusRead),
    let copy := SetupCopy.ofRecord data
    s.run.runState = .starting → s.run.setupRead = some r → r.tag = tag → r.refused = false →
    (s.window.run = false →
      exec (.setupReadData tag data) s = .next (s.startEnded s.run.setupResult))
    ∧ (s.window.run = true → copy.verdict ≠ .ok →
      exec (.setupReadData tag data) s = .next (s.startEnded copy.verdict))
    ∧ (s.window.run = true → copy.verdict = .ok →
      ∃ t v, exec (.setupReadData tag data) s = .next t
        ∧ (∀ l : Fin 16, v[l] = s.lines.lines[l].retimed copy.debounce[l])
        ∧ LinesBecome
            { s.emptied with
              run.runState := .running
              run.copy := copy
              fetch.state := .idle
              lines.latest := none } t v false)

/-- An error response to the setup read, or its completion timeout of 50 ms, ends the start in STOPPED
with SETUP_READ_ERROR, RUN 0 and the flag STOPPED, and no fault (R146, R147, R151). -/
def Obligations.SetupReadErrorEndsStart : Prop :=
  ∀ (s : State) (r : BusRead), s.run.runState = .starting → s.run.setupRead = some r →
    exec (.setupReadError r.tag) s = .next (s.startEnded .readError)
    ∧ (50000 ≤ r.elapsed → exec (.completionTimeout r.tag) s = .next (s.startEnded .readError))

/-- A bus error enters FAULTED with its code (R151, R152): an error response or the completion timeout of
the order read or the pool read in RUNNING and STOPPING, a write not delivered and the loss of the link
also in STARTING. In STOPPED and FAULTED a further failure has no effect (R151, R152). That PAGE_ERROR and
POST_ERROR are taken without a write on record is the model's choice (log entry 17). -/
def Obligations.BusErrorsEnterFaulted : Prop :=
  (∀ (s : State) (r : OrderRead), s.Live → s.fetch.read = some r →
    (∃ t, exec (.fetchError r.read.tag) s = .next t ∧ EntersFaulted s t .fetchError)
    ∧ (50000 ≤ r.read.elapsed →
      ∃ t, exec (.completionTimeout r.read.tag) s = .next t ∧ EntersFaulted s t .fetchError))
  ∧ (∀ (s : State) (r : BusRead), s.Live → s.pages.poolRead = some r →
    (∃ t, exec (.poolError r.tag) s = .next t ∧ EntersFaulted s t .poolError)
    ∧ (50000 ≤ r.elapsed → (∀ o, s.fetch.read = some o → o.read.tag ≠ r.tag) →
      ∃ t, exec (.completionTimeout r.tag) s = .next t ∧ EntersFaulted s t .poolError))
  ∧ (∀ s : State, s.run.runState = .starting ∨ s.Live →
    (∃ t, exec .pageError s = .next t ∧ EntersFaulted s t .pageError)
    ∧ (∃ t, exec .postError s = .next t ∧ EntersFaulted s t .postError)
    ∧ (∃ t, exec .linkDown s = .next t ∧ EntersFaulted s t .linkDown))
  ∧ (∀ (s : State) (tag : Nat), s.run.runState = .stopped ∨ s.run.runState = .faulted →
    ∀ c ∈ [Instr.fetchError tag, .poolError tag, .pageError, .postError, .completionTimeout tag,
           .linkDown], exec c s = .next s)

/-- The card leaves STOPPING for STOPPED exactly when the five conditions of R150 hold: a last gathering
is signalled (R139), the flag STOPPED is set, the moderation counter is 0 and its timer stopped, and all
else keeps its value. Reports of writes that have not been acted on lapse (R151, log entry 9). -/
def Obligations.StopCompletesWhenDrained : Prop :=
  ∀ s : State, s.run.runState = .stopping →
    let stopped := { s with
                     run.runState := .stopped
                     post.gathered := 0
                     post.timer := none
                     link.undelivered := [] }
    (s.Drained → s.post.gathered = 0 → exec .stopComplete s = .next (stopped.flagged 2))
    ∧ (s.Drained → s.post.gathered ≠ 0 →
      exec .stopComplete s = .next ((stopped.flagged 0).flagged 2))
    ∧ (¬ s.Drained → exec .stopComplete s = .next s)

/-! ### Record layouts -/

/-- Every completion record is 32 bytes: kind and lap bit, status (the codes of Table 6-11) and detail
code, tag, order number, order head in bits 11 to 0, and the 22 bytes of its kind; status and detail are
0 in FIRED, PAGE and NOTICE records, and the tag and the order number 0 in NOTICE records (R161, Tables
7-4, 9-6 to 9-8). A page header is 16 bytes and a scan record 12 + 2n bytes for n values (R162, Tables
9-9 and 9-10). -/
def Obligations.WrittenRecordsHaveTheirLayout : Prop :=
  (∀ (r : CompletionRecord) (lap : Bool) (head : Nat), head < 4096 →
    (r.bytes lap head).length = 32
    ∧ (∀ b, (r.bytes lap head)[0]? = some b →
        b.getLsbD 7 = lap ∧ (b.toNat % 128 =
          match r with
          | .orderDone _ => 1
          | .fired _ => 2
          | .page _ => 3
          | .notice _ => 4))
    ∧ (∀ b, (r.bytes lap head)[1]? = some b →
        b.toNat =
          match r with
          | .orderDone x => 16 * x.detail.toNat +
              match x.status with
              | .ok => 0
              | .cancelled => 1
              | .halted => 2
              | .timedOut => 3
              | .gateLost => 4
              | .tagBusy => 5
              | .badOrder => 6
              | .noTarget => 7
          | .fired _ => 0
          | .page _ => 0
          | .notice _ => 0)
    ∧ (∀ k < 2, (r.bytes lap head)[2 + k]? = some
        (match r with
          | .orderDone x => byteOf x.tag k
          | .fired x => byteOf x.tag k
          | .page x => byteOf x.tag k
          | .notice _ => 0))
    ∧ (∀ k < 4, (r.bytes lap head)[4 + k]? = some
        (match r with
          | .orderDone x => byteOf x.orderNumber k
          | .fired x => byteOf x.orderNumber k
          | .page x => byteOf x.orderNumber k
          | .notice _ => 0))
    ∧ (∀ k < 2, (r.bytes lap head)[8 + k]? = some (BitVec.ofNat 8 (head / 256 ^ k)))
    ∧ (match r with
        | .orderDone x =>
          (∀ k < 2, (r.bytes lap head)[0x0A + k]? = some (byteOf x.firings k))
          ∧ (∀ k < 2, (r.bytes lap head)[0x0C + k]? = some (byteOf x.pages k))
          ∧ (∀ k < 6, (r.bytes lap head)[0x0E + k]? = some (byteOf x.ended k))
          ∧ (∀ k < 4, (r.bytes lap head)[0x14 + k]? = some (byteOf x.stored k))
          ∧ (∀ k < 4, (r.bytes lap head)[0x18 + k]? = some (byteOf x.missed k))
          ∧ (∀ k < 4, (r.bytes lap head)[0x1C + k]? = some (byteOf x.dropped k))
        | .fired x =>
          (r.bytes lap head)[0x0A]? = some x.firingIndex
          ∧ (r.bytes lap head)[0x0B]? = some (match x.cause with
              | .pattern => 1
              | .timeout => 2
              | .start => 3)
          ∧ (∀ k < 2, (r.bytes lap head)[0x0C + k]? = some (byteOf x.snapshot k))
          ∧ (∀ k < 6, (r.bytes lap head)[0x0E + k]? = some (byteOf x.onset k))
          ∧ (∀ k < 6, (r.bytes lap head)[0x14 + k]? = some (byteOf x.fireTime k))
          ∧ (∀ k < 4, (r.bytes lap head)[0x1A + k]? = some (byteOf x.fireNumber k))
          ∧ (∀ k < 2, (r.bytes lap head)[0x1E + k]? = some 0)
        | .page x =>
          (∀ k < 2, (r.bytes lap head)[0x0A + k]? = some (byteOf x.sequence k))
          ∧ (r.bytes lap head)[0x0C]? = some ((BitVec.ofBool x.flags.unused
              ++ BitVec.ofBool x.flags.flushed ++ BitVec.ofBool x.flags.endOfOrder
              ++ BitVec.ofBool x.flags.endOfFiring).setWidth 8)
          ∧ (r.bytes lap head)[0x0D]? = some 0
          ∧ (∀ k < 2, (r.bytes lap head)[0x0E + k]? = some (byteOf x.scans k))
          ∧ (∀ k < 4, (r.bytes lap head)[0x10 + k]? = some (byteOf x.bytesUsed k))
          ∧ (∀ k < 4, (r.bytes lap head)[0x14 + k]? = some (byteOf x.ident k))
          ∧ (∀ k < 8, (r.bytes lap head)[0x18 + k]? = some 0)
        | .notice x =>
          (r.bytes lap head)[0x0A]? = some (match x.code with
            | .poolDry => 1
            | .poolBad => 2)
          ∧ (r.bytes lap head)[0x0B]? = some 0
          ∧ (∀ k < 2, (r.bytes lap head)[0x0C + k]? = some (BitVec.ofNat 8 (x.count / 256 ^ k)))
          ∧ (∀ k < 6, (r.bytes lap head)[0x0E + k]? = some (byteOf x.time k))
          ∧ (∀ k < 4, (r.bytes lap head)[0x14 + k]? = some (byteOf x.ident k))
          ∧ (∀ k < 8, (r.bytes lap head)[0x18 + k]? = some 0)))
  ∧ (∀ (tag sequence scans : BitVec 16) (flags : PageFlags) (first : Timestamp),
    let bytes := pageHeaderBytes tag sequence scans flags first
    bytes.length = 16
    ∧ (∀ k < 2, bytes[k]? = some (byteOf tag k) ∧ bytes[2 + k]? = some (byteOf sequence k)
        ∧ bytes[4 + k]? = some (byteOf scans k))
    ∧ bytes[6]? = some ((BitVec.ofBool flags.flushed ++ BitVec.ofBool flags.endOfOrder
        ++ BitVec.ofBool flags.endOfFiring).setWidth 8)
    ∧ bytes[7]? = some 0
    ∧ (∀ k < 6, bytes[8 + k]? = some (byteOf first k))
    ∧ bytes[14]? = some 0 ∧ bytes[15]? = some 0)
  ∧ (∀ (timestamp : Timestamp) (snapshot : LineWord) (missed : Nat) (index : Byte)
      (values : List (BitVec 14)),
    let bytes := scanRecordBytes timestamp snapshot missed index values
    bytes.length = 12 + 2 * values.length
    ∧ (∀ k < 6, bytes[k]? = some (byteOf timestamp k))
    ∧ (∀ k < 2, bytes[6 + k]? = some (byteOf snapshot k)
        ∧ bytes[8 + k]? = some (BitVec.ofNat 8 (missed / 256 ^ k)))
    ∧ bytes[10]? = some index
    ∧ bytes[11]? = some (BitVec.ofNat 8 values.length)
    ∧ (∀ (j : Nat) (v : BitVec 14), values[j]? = some v → ∀ k < 2,
        bytes[12 + 2 * j + k]? = some (byteOf (v.setWidth 16) k)))

/-- The order copy of an ARM or SAMPLE holds the fields of Table 9-3 at their offsets, little-endian, and
only those of its kind (R41, R114, R160); the operands of the other kinds stand where Table 9-4 puts them;
and the Setup Record copy holds the fields of Table 9-1. -/
def Obligations.ReadRecordsAreDecodedByLayout : Prop :=
  (∀ (o : OrderImage) (number : BitVec 32),
    let copy := o.copy number
    copy.tag = byteOf o 3 ++ byteOf o 2
    ∧ copy.number = number
    ∧ ((byteOf o 4).toNat ≤ 3 → copy.priority.val = (byteOf o 4).toNat)
    ∧ copy.notifyFire = (byteOf o 1).getLsbD 0
    ∧ copy.rearm = byteOf o 0x0D
    ∧ copy.scanCount = byteOf o 0x15 ++ byteOf o 0x14
    ∧ copy.interval = byteOf o 0x1A ++ byteOf o 0x19 ++ byteOf o 0x18
    ∧ copy.entries.length = (byteOf o 0x16).toNat
    ∧ (∀ k e, copy.entries[k]? = some e →
        e.averaging = byteOf o (0x21 + 2 * k)
        ∧ ((byteOf o (0x20 + 2 * k)).toNat ≤ 11 →
            e.channel.val = (byteOf o (0x20 + 2 * k)).toNat))
    ∧ (byteOf o 0 = 1 → ∃ a, copy.kind = .arm a
        ∧ a.pattern.mask = byteOf o 9 ++ byteOf o 8
        ∧ a.pattern.levels = byteOf o 0x0B ++ byteOf o 0x0A
        ∧ (a.pattern.combine = .all ↔ (byteOf o 0x0C).getLsbD 0 = true)
        ∧ (a.pattern.fireMode = .entry ↔ (byteOf o 0x0C).getLsbD 1 = true)
        ∧ a.holdTime = byteOf o 0x0F ++ byteOf o 0x0E
        ∧ a.armTimeout = byteOf o 0x11 ++ byteOf o 0x10
        ∧ a.fireOnTimeout = (byteOf o 1).getLsbD 1
        ∧ ((byteOf o 1).getLsbD 2 = true → a.gateTag = some (byteOf o 0x13 ++ byteOf o 0x12))
        ∧ ((byteOf o 1).getLsbD 2 = false → a.gateTag = none))
    ∧ (byteOf o 0 = 2 → copy.kind = .sample (byteOf o 0x1E ++ byteOf o 0x1D ++ byteOf o 0x1C))
    ∧ o.targetTag = byteOf o 9 ++ byteOf o 8
    ∧ o.lineMask = byteOf o 9 ++ byteOf o 8
    ∧ o.debounce = byteOf o 0x0A
    ∧ o.fenceLimit = byteOf o 9 ++ byteOf o 8)
  ∧ (∀ data : BitVec 1024,
    let copy := SetupCopy.ofRecord data
    (∀ k < 8, byteOf copy.orderBase k = byteOf data k
      ∧ byteOf copy.poolBase k = byteOf data (0x08 + k)
      ∧ byteOf copy.doneBase k = byteOf data (0x10 + k))
    ∧ copy.orderSize = byteOf data 0x19 ++ byteOf data 0x18
    ∧ copy.poolSize = byteOf data 0x1B ++ byteOf data 0x1A
    ∧ copy.doneSize = byteOf data 0x1D ++ byteOf data 0x1C
    ∧ copy.moderationCount = byteOf data 0x1E
    ∧ (∀ k < 4, byteOf copy.pageSize k = byteOf data (0x20 + k))
    ∧ copy.flushInterval = byteOf data 0x25 ++ byteOf data 0x24
    ∧ copy.moderationDelay = byteOf data 0x27 ++ byteOf data 0x26
    ∧ (∀ c : Fin 12, copy.channels[c].enabled = (byteOf data (0x28 + 2 * c.val)).getLsbD 0
        ∧ copy.channels[c].settle = byteOf data (0x29 + 2 * c.val))
    ∧ (∀ l : Fin 16, copy.debounce[l] = byteOf data (0x40 + l.val)))

/-! ### Invariants that every step keeps -/

/-- No step takes a store beyond its capacity (R131, R83, R91). -/
def Obligations.EveryStepKeepsCapacities : Prop :=
  ∀ s t : State, WithinCapacity s → step s = .next t → WithinCapacity t

/-- Every step keeps the Due Queue in grant order with at most one entry per slot (R69, R70, R71).
That due times are in whole microseconds is the model's choice (log entry 33). -/
def Obligations.EveryStepKeepsGrantOrder : Prop :=
  ∀ s t : State, GrantOrdered s.sched.due → step s = .next t → GrantOrdered t.sched.due

/-- No step lets two occupied slots hold the same tag (R42). -/
def Obligations.EveryStepKeepsTagsDistinct : Prop :=
  ∀ s t : State, TagsDistinct s → step s = .next t → TagsDistinct t

/-- Every step keeps the lines settled: a line is STEADY exactly while its raw level is its debounced
level, no qualification outlasts its debounce time, and none runs in FAULTED (R2 to R5, R11 to R14). -/
def Obligations.EveryStepKeepsLinesSettled : Prop :=
  ∀ s t : State, LinesSettled s → step s = .next t → LinesSettled t

/-- Every step keeps gates linked to earlier orders that can still fire or whose loss is on its way (R44,
R45, R57, R116). -/
def Obligations.EveryStepKeepsGatesLinked : Prop :=
  ∀ s t : State, GatesLinkBackward s → step s = .next t → GatesLinkBackward t

/-- Every step keeps the account of every slot's scans: of every order, continuous ones too and whatever
its end reason, each scan that became due is waiting, converting, staged or counted once, modulo 2^32;
an order that ends OK has counted n × f scans for f firings, and one that ends otherwise n × f and those
that became due in its unfinished firing (R52). The field that counts the scans due over the order is the
model's own (log entry 29). -/
def Obligations.EveryStepKeepsScansAccounted : Prop :=
  ∀ s t : State, ScansAccounted s → step s = .next t → ScansAccounted t

/-- The state after a power-on reset meets every invariant that the steps keep. -/
def Obligations.ResetMeetsTheInvariants : Prop :=
  WithinCapacity State.reset ∧ GrantOrdered State.reset.sched.due ∧ TagsDistinct State.reset
    ∧ LinesSettled State.reset ∧ GatesLinkBackward State.reset ∧ ScansAccounted State.reset

/-- The run state changes only at the transitions of Table 8-2, whatever well-formed command comes, and
no tick changes it (R143). -/
def Obligations.RunStateChangesOnlyByTable : Prop :=
  (∀ (c : Instr) (s t : State), c.wellFormed = true → exec c s = .next t →
    s.run.runState.MayBecome c t.run.runState)
  ∧ (∀ s t : State, s.pending = [] → step s = .next t → t.run.runState = s.run.runState)

/-- Every command completes; what the card has issued is never taken back (R104, R132); and a flag of
EVENTS, once set, is cleared by nothing but a write to EVENTS or a reset (R140). The list of what has been
issued is the model's (log entry 8), and so is that a command whose conditions do not hold changes
nothing (log entry 2). -/
def Obligations.IssuedWritesStandAndFlagsLast : Prop :=
  ∀ (c : Instr) (s : State), ∃ t, exec c s = .next t
    ∧ (∃ more, t.link.issued = s.link.issued ++ more)
    ∧ (c.wellFormed = true → (∀ width value, c ≠ .eventsWrite width value) → c ≠ .hostReset →
        c ≠ .powerOnReset → c ≠ .linkReset →
        ∀ k, s.events.flags.getLsbD k = true → t.events.flags.getLsbD k = true)
end

