-- ==== Sys2Proof/Laws/State.lean ====
section
/-! SUPPORT. The updates of `State`: what each named update leaves and what it gives, so that no proof
unfolds a record update. Each equation is true by unfolding one definition. -/

namespace Sys2Proof.Machine

variable (s : State) (i j : Fin 32) (x : Slot)

/-! ### Slots -/

@[simp] theorem State.slot_setSlot :
    (s.setSlot i x).slot j = if j = i then x else s.slot j := by
  unfold State.slot State.setSlot
  by_cases h : j = i
  · subst h; simp
  · have h' : i.val ≠ j.val := fun e => h (Fin.ext e.symm)
    simp [h, Vector.getElem_set_ne, h']

theorem State.slot_setSlot_self : (s.setSlot i x).slot i = x := by simp

theorem State.slot_setSlot_ne (h : j ≠ i) : (s.setSlot i x).slot j = s.slot j := by simp [h]

@[simp] theorem State.slot_mapSlots (f : Slot → Slot) : (s.mapSlots f).slot j = f (s.slot j) := by
  simp [State.slot, State.mapSlots]

@[simp] theorem State.slot_freeSlots (s : State) :
    State.slot { s with slots := freeSlots } i = Slot.free := by
  simp [State.slot, freeSlots]

@[simp] theorem State.setSlot_pending : (s.setSlot i x).pending = s.pending := rfl
@[simp] theorem State.setSlot_run : (s.setSlot i x).run = s.run := rfl
@[simp] theorem State.setSlot_lines : (s.setSlot i x).lines = s.lines := rfl
@[simp] theorem State.setSlot_fetch : (s.setSlot i x).fetch = s.fetch := rfl
@[simp] theorem State.setSlot_sched : (s.setSlot i x).sched = s.sched := rfl
@[simp] theorem State.setSlot_pages : (s.setSlot i x).pages = s.pages := rfl
@[simp] theorem State.setSlot_post : (s.setSlot i x).post = s.post := rfl
@[simp] theorem State.setSlot_events : (s.setSlot i x).events = s.events := rfl
@[simp] theorem State.setSlot_window : (s.setSlot i x).window = s.window := rfl
@[simp] theorem State.setSlot_link : (s.setSlot i x).link = s.link := rfl

@[simp] theorem State.mapSlots_pending (f : Slot → Slot) : (s.mapSlots f).pending = s.pending := rfl
@[simp] theorem State.mapSlots_run (f : Slot → Slot) : (s.mapSlots f).run = s.run := rfl
@[simp] theorem State.mapSlots_lines (f : Slot → Slot) : (s.mapSlots f).lines = s.lines := rfl
@[simp] theorem State.mapSlots_fetch (f : Slot → Slot) : (s.mapSlots f).fetch = s.fetch := rfl
@[simp] theorem State.mapSlots_sched (f : Slot → Slot) : (s.mapSlots f).sched = s.sched := rfl
@[simp] theorem State.mapSlots_pages (f : Slot → Slot) : (s.mapSlots f).pages = s.pages := rfl
@[simp] theorem State.mapSlots_post (f : Slot → Slot) : (s.mapSlots f).post = s.post := rfl
@[simp] theorem State.mapSlots_events (f : Slot → Slot) : (s.mapSlots f).events = s.events := rfl
@[simp] theorem State.mapSlots_window (f : Slot → Slot) : (s.mapSlots f).window = s.window := rfl
@[simp] theorem State.mapSlots_link (f : Slot → Slot) : (s.mapSlots f).link = s.link := rfl

/-- Two states with the same slots read the same slot. -/
theorem State.slot_congr {s t : State} (h : s.slots = t.slots) : s.slot i = t.slot i := by
  unfold State.slot; rw [h]

/-- States agree in all slots when every slot reads the same. -/
theorem State.slots_ext {s t : State} (h : ∀ j, s.slot j = t.slot j) : s.slots = t.slots := by
  apply Vector.ext
  intro k hk
  exact h ⟨k, hk⟩

theorem mem_slotNumbers : i ∈ slotNumbers := List.mem_finRange i

/-! ### Due Queue and Post Queue -/

@[simp] theorem State.dropDue_slot : (s.dropDue i).slot j = s.slot j := rfl
@[simp] theorem State.dropDue_due :
    (s.dropDue i).sched.due = s.sched.due.filter fun d => d.slot != i := rfl
@[simp] theorem State.dropDue_conversion : (s.dropDue i).sched.conversion = s.sched.conversion := rfl
@[simp] theorem State.dropDue_staging : (s.dropDue i).sched.staging = s.sched.staging := rfl
@[simp] theorem State.dropDue_run : (s.dropDue i).run = s.run := rfl
@[simp] theorem State.dropDue_lines : (s.dropDue i).lines = s.lines := rfl

@[simp] theorem State.postRecord_queue (r : CompletionRecord) :
    (s.postRecord r).post.queue = s.post.queue ++ [r] := rfl
@[simp] theorem State.postRecord_closeWaits (r : CompletionRecord) :
    (s.postRecord r).pages.closeWaits =
      (s.pages.closeWaits || Config.postQueueSize ≤ s.post.queue.length + 1) := rfl
@[simp] theorem State.postRecord_slot (r : CompletionRecord) :
    (s.postRecord r).slot j = s.slot j := rfl
@[simp] theorem State.postRecord_run (r : CompletionRecord) : (s.postRecord r).run = s.run := rfl
@[simp] theorem State.postRecord_sched (r : CompletionRecord) :
    (s.postRecord r).sched = s.sched := rfl
@[simp] theorem State.postRecord_lines (r : CompletionRecord) :
    (s.postRecord r).lines = s.lines := rfl
@[simp] theorem State.postRecord_fetch (r : CompletionRecord) :
    (s.postRecord r).fetch = s.fetch := rfl

/-! ### The work that waits at the end of a stall -/

@[simp] theorem State.endStall_slot :
    s.endStall.slot i = if s.pages.closeWaits then (s.slot i).holdWork else s.slot i := by
  unfold State.endStall
  split
  · exact State.slot_mapSlots s i Slot.holdWork
  · rfl

@[simp] theorem State.endStall_staging :
    s.endStall.sched.staging =
      if s.pages.closeWaits then s.sched.staging.map ScanResult.holdWork else s.sched.staging := by
  unfold State.endStall; split <;> rfl

@[simp] theorem State.endStall_run : s.endStall.run = s.run := by unfold State.endStall; split <;> rfl
@[simp] theorem State.endStall_lines : s.endStall.lines = s.lines := by
  unfold State.endStall; split <;> rfl
@[simp] theorem State.endStall_fetch : s.endStall.fetch = s.fetch := by
  unfold State.endStall; split <;> rfl
@[simp] theorem State.endStall_due : s.endStall.sched.due = s.sched.due := by
  unfold State.endStall; split <;> rfl
@[simp] theorem State.endStall_conversion : s.endStall.sched.conversion = s.sched.conversion := by
  unfold State.endStall; split <;> rfl
@[simp] theorem State.endStall_pages : s.endStall.pages = s.pages := by
  unfold State.endStall; split <;> rfl
@[simp] theorem State.endStall_post : s.endStall.post = s.post := by
  unfold State.endStall; split <;> rfl
@[simp] theorem State.endStall_link : s.endStall.link = s.link := by
  unfold State.endStall; split <;> rfl

/-! ### Time -/

@[simp] theorem State.setSlot_now : (s.setSlot i x).now = s.now := rfl
@[simp] theorem State.setSlot_moment : (s.setSlot i x).moment = s.moment := rfl
@[simp] theorem State.setSlot_word : (s.setSlot i x).word = s.word := rfl
@[simp] theorem State.setSlot_isRunning : (s.setSlot i x).isRunning = s.isRunning := rfl
@[simp] theorem State.setSlot_isLive : (s.setSlot i x).isLive = s.isLive := rfl
@[simp] theorem State.setSlot_hasDue : (s.setSlot i x).hasDue j = s.hasDue j := rfl

/-- The timestamp is the low 48 bits of the moment (R144). -/
theorem State.timestamp_of_moment : BitVec.ofNat 48 s.moment = s.now := by
  apply BitVec.eq_of_toNat_eq
  have h : s.run.timestamp.toNat < 2 ^ 48 := s.run.timestamp.isLt
  simp only [State.moment, State.now, BitVec.toNat_ofNat, Nat.mul_add_mod_self_right]
  omega

end Sys2Proof.Machine
end

