-- ==== Sys2Proof/Laws/Ops.lean ====
section
/-! SUPPORT. One lemma for each shared operation that says once everything it does, in the terms of
Safety.lean. -/

namespace Sys2Proof.Machine

variable (s : State) (i j : Fin 32)

/-! ### Guards -/

theorem toNat_eq_zero {w : Nat} (v : BitVec w) : v.toNat = 0 ↔ v = 0 := by
  rw [← BitVec.toNat_inj]; simp

theorem Slot.scanCount_eq_zero (x : Slot) : x.scanCount = 0 ↔ x.order.scanCount = 0 :=
  toNat_eq_zero _

theorem Slot.intervalTime_eq_zero (x : Slot) : x.intervalTime = 0 ↔ x.order.interval = 0 :=
  toNat_eq_zero _

theorem State.setSlot_slot_self : s.setSlot i (s.slot i) = s := by
  have : s.slots = (s.setSlot i (s.slot i)).slots :=
    State.slots_ext fun j => by by_cases h : j = i <;> simp [h]
  cases s; simp only [State.setSlot] at this ⊢; rw [← this]

theorem State.whenever_true {r : Bool} (t : State) (h : r = true) : s.whenever r t = .next t := by
  simp [State.whenever, h]

theorem State.whenever_false {r : Bool} (t : State) (h : r = false) : s.whenever r t = .next s := by
  simp [State.whenever, h]

theorem State.isRunning_iff : s.isRunning = true ↔ s.run.runState = .running := by
  simp [State.isRunning]

theorem State.isLive_iff : s.isLive = true ↔ s.Live := by
  simp [State.isLive, State.Live]

theorem State.postRoom_iff : s.postRoom = true ↔ s.HasRoom := by
  unfold State.postRoom State.HasRoom Config.postQueueSize; exact decide_eq_true_iff

theorem State.hasDue_false_iff : s.hasDue i = false ↔ s.NoEntry i := by
  simp [State.hasDue, State.NoEntry]

theorem Slot.follows_iff (x : Slot) : x.follows i = true ↔ x.LinksTo i := by
  simp [Slot.follows, Slot.LinksTo]

theorem Slot.occupied_iff (x : Slot) : x.occupied = true ↔ x.state ≠ .free := by
  simp [Slot.occupied]

theorem State.stalled_false_iff : s.stalled = false ↔ ∀ j, (s.slot j).closingPage = none := by
  simp [State.stalled, slotNumbers, Option.isSome_iff_ne_none]

/-! ### Followers and requests -/

/-- The event of slot `i` reaches the other slots by R45 and leaves slot `i` alone, if it is not
GATED. -/
theorem State.tellFollowers_slot (e : GateEvent) :
    (s.tellFollowers i e).slot j = (s.slot j).hear i e := by
  simp [State.tellFollowers]

theorem Slot.hear_of_linksTo {x : Slot} (e : GateEvent) (h : x.LinksTo i) :
    x.hear i e = { x with gateEvents := x.gateEvents ++ [e] } := by
  simp [Slot.hear, (Slot.follows_iff i x).2 h]

theorem Slot.hear_of_not_linksTo {x : Slot} (e : GateEvent) (h : ¬ x.LinksTo i) :
    x.hear i e = x := by
  have : x.follows i = false := by
    rw [← Bool.not_eq_true]; exact fun c => h ((Slot.follows_iff i x).1 c)
  simp [Slot.hear, this]

theorem Slot.wantsClose_iff (x : Slot) : x.wantsClose = true ↔ x.Asks := by
  simp only [Slot.wantsClose, Slot.Asks, Slot.ending, Slot.scanCount, Bool.and_eq_true,
    Bool.or_eq_true, beq_iff_eq, bne_iff_ne, Bool.not_eq_true', Option.isNone_iff_eq_none]
  have h : x.order.scanCount.toNat ≠ 0 ↔ x.order.scanCount ≠ 0 := not_congr (toNat_eq_zero _)
  rw [h]; tauto

/-- The work that waits for the Page Writer (R105). -/
theorem State.mem_waitingWork (w : WorkItem) : w ∈ s.waitingWork ↔ s.Waits w := by
  have request : ∀ j, ((if (s.slot j).wantsClose && (s.slot j).openPage.isSome
      then (s.slot j).requestSince else none) = some w
      ∨ (s.slot j).openPage.bind OpenPage.expired = some w) ↔
      ∃ p, (s.slot j).openPage = some p
        ∧ (((s.slot j).Asks ∧ (s.slot j).requestSince = some w) ∨ p.expired = some w) := by
    intro j
    by_cases ha : (s.slot j).wantsClose = true
    · have ha' := (Slot.wantsClose_iff _).1 ha
      cases hp : (s.slot j).openPage <;> simp [ha, ha']
    · have ha' : ¬ (s.slot j).Asks := mt (Slot.wantsClose_iff _).2 ha
      cases hp : (s.slot j).openPage <;> simp [ha, ha']
  unfold State.waitingWork State.Waits
  simp only [List.mem_append, List.mem_filterMap, mem_slotNumbers, true_and, or_assoc,
    Option.mem_toList, Option.map_eq_some_iff]
  rw [← exists_or]
  simp only [request]

/-- The Page Writer may take work exactly when R105 lets it. -/
theorem State.mayWork_iff (arose : Moment) : s.mayWork arose = true ↔ s.PageWriterTakes arose := by
  unfold State.mayWork State.PageWriterTakes
  rw [Bool.and_eq_true, Bool.not_eq_true', s.stalled_false_iff, List.all_eq_true]
  refine and_congr_right fun _ => forall_congr' fun w => ?_
  rw [s.mem_waitingWork]
  simp only [Bool.not_eq_true', Bool.and_eq_false_iff, decide_eq_false_iff_not, Nat.not_lt]
  cases w.held <;> simp

/-- A slot that asks without a page has its condition met (R54, R57, R101). -/
theorem Slot.pageSettled_settles (x : Slot) : x.SettlesTo x.pageSettled := by
  have : (x.wantsClose && x.openPage.isNone && x.closingPage.isNone) = true ↔
      x.Asks ∧ x.openPage = none ∧ x.closingPage = none := by
    simp only [Bool.and_eq_true, Slot.wantsClose_iff, Option.isNone_iff_eq_none, and_assoc]
  unfold Slot.pageSettled
  exact ⟨fun h => by rw [if_pos (this.2 h)], fun h => by rw [if_neg (mt this.1 h)]⟩

/-- A record enters the Post Queue as R131 says. -/
theorem State.postRecord_posted (r : CompletionRecord) : s.postRecord r = s.posted r := rfl

/-- A stall that ends leaves what R105 says. -/
theorem State.endStall_afterStall : s.endStall = s.afterStall := rfl

/-- A close begins as R98 says. -/
theorem State.beginClose_closing (p : OpenPage) (flags : PageFlags) (requested : Bool) :
    s.beginClose i p flags requested = s.closing i p flags requested := by
  have : ((s.slot i).pendingFired.isSome || !s.postRoom)
      = decide ((s.slot i).pendingFired ≠ none ∨ 24 ≤ s.post.queue.length) := by
    rw [Bool.eq_iff_iff, decide_eq_true_iff, Bool.or_eq_true, Option.isSome_iff_ne_none,
      Bool.not_eq_true', ← Bool.not_eq_true, State.postRoom_iff, State.HasRoom, Nat.not_lt]
  unfold State.beginClose State.closing
  rw [this]

/-- The note of a request changes at most the moment of the request of slot `i` (R105). -/
theorem State.noteRequest_asked :
    ∃ y, (s.slot i).AskedFrom s.moment y ∧ s.noteRequest i = s.setSlot i y := by
  by_cases h : (s.slot i).Asks ∧ (s.slot i).requestSince = none
  · refine ⟨{ s.slot i with requestSince := some (.fresh s.moment) }, ⟨fun _ _ => rfl, fun c => absurd h c⟩, ?_⟩
    simp [State.noteRequest, (Slot.wantsClose_iff _).2 h.1, h.2]
  · refine ⟨s.slot i, ⟨fun a b => absurd ⟨a, b⟩ h, fun _ => rfl⟩, ?_⟩
    have : ((s.slot i).wantsClose && (s.slot i).requestSince.isNone) = false := by
      rw [← Bool.not_eq_true, Bool.and_eq_true, Slot.wantsClose_iff, Option.isNone_iff_eq_none]
      exact h
    rw [State.setSlot_slot_self]; simp [State.noteRequest, this]

/-! ### Endings and fires -/

theorem Slot.countMiss_eq (x : Slot) : x.countMiss = x.afterMiss := by
  simp only [Slot.countMiss, Slot.afterMiss, sat16, beq_iff_eq, Slot.scanCount_eq_zero]

theorem Slot.closed_eq (x : Slot) (waiting : Bool) (reason : EndReason) (time : Timestamp) :
    x.closed waiting reason time =
      if waiting then x.afterMiss.afterEnding reason time else x.afterEnding reason time := by
  cases waiting <;>
    simp only [Slot.closed, Slot.countMiss_eq, Slot.afterEnding, Slot.leaveWait, Slot.afterMiss,
      beq_iff_eq, if_true, Bool.false_eq_true, if_false]; rfl

/-- Entering CLOSING does what R56 says. -/
theorem State.closeSlot_ends (reason : EndReason) (time : Timestamp) :
    Ends s (s.closeSlot i reason time) i reason time := by
  let a := ((s.setSlot i ((s.slot i).closed (s.hasDue i) reason time)).dropDue i).tellFollowers i
    (.loss time)
  obtain ⟨y, hy, ht⟩ := a.noteRequest_asked i
  have hai : a.slot i = s.endedRecord i reason time := by
    have hn : ¬ ((s.slot i).closed (s.hasDue i) reason time).LinksTo i := by
      simp [Slot.closed, Slot.LinksTo]
    simp only [a, State.tellFollowers_slot, State.dropDue_slot, State.slot_setSlot_self,
      Slot.hear_of_not_linksTo i _ hn]
    simp only [Slot.closed_eq, State.endedRecord, State.hasDue]
  have hm : a.moment = s.moment := rfl
  rw [hai, hm] at hy
  have ht' : s.closeSlot i reason time = a.setSlot i y := ht
  rw [ht']
  refine ⟨by simpa using hy, ?_, rfl⟩
  intro j hj
  have haj : (a.setSlot i y).slot j = (s.slot j).hear i (.loss time) := by
    simp [hj, a, State.tellFollowers_slot]
  exact ⟨fun h => by rw [haj, Slot.hear_of_linksTo i _ h],
    fun h => by rw [haj, Slot.hear_of_not_linksTo i _ h]⟩

theorem Slot.raiseDue_fired (x : Slot) (record : FiredRecord) (moment : Moment) :
    (x.fired record moment).raiseDue = x.afterFire record moment := by
  have h1 : (x.scanCount != 0) = (x.order.scanCount != 0) := by
    rw [Bool.eq_iff_iff, bne_iff_ne, bne_iff_ne, Ne, Ne, Slot.scanCount_eq_zero]
  have h2 : (x.intervalTime == 0) = !(x.order.interval != 0) := by
    rw [Bool.eq_iff_iff]; simp [Slot.intervalTime_eq_zero]
  have h3 : (x.order.scanCount == 0) = !(x.order.scanCount != 0) := by
    rw [bne, Bool.not_not]
  have h4 : ((1 : Nat) == x.scanCount) = !(x.order.scanCount.toNat != 1) := by
    rw [Bool.eq_iff_iff]; simp only [beq_iff_eq, bne, Bool.not_not]; exact eq_comm
  unfold Slot.raiseDue
  have hs : (x.fired record moment).scanCount = x.scanCount := rfl
  have hn : min ((x.fired record moment).dueCount + 1) 65535 = 1 := rfl
  simp only [hs, hn, h1, h4]
  simp only [Slot.fired, Slot.leaveWait, Slot.afterFire, Slot.gridGoesOn, h2, h3]
  cases x.order.interval != 0 <;> cases x.order.scanCount != 0 <;>
    cases x.order.scanCount.toNat != 1 <;> rfl

/-- A fire does what R32 says, when no entry of the slot waits. -/
theorem State.fire_fires (cause : Cause) (onset time : Timestamp) (h : s.NoEntry i) :
    Fires s (s.fire i cause onset time) i cause onset time := by
  let record := s.fireRecord i cause onset time
  let x := (s.slot i).fired record s.moment
  let a := ({ s with run.fireNumber := s.run.fireNumber + 1 }.setSlot i x).tellFollowers i
    (.opening time)
  have hd : a.hasDue i = false := (s.hasDue_false_iff i).2 h
  have hai : a.slot i = x := by
    have hn : ¬ x.LinksTo i := by simp [x, Slot.fired, Slot.LinksTo]
    simp only [a, State.tellFollowers_slot, State.slot_setSlot_self, Slot.hear_of_not_linksTo i _ hn]
  have ht : s.fire i cause onset time =
      { a.setSlot i x.raiseDue with sched.due := insertDue (a.dueEntry i) a.sched.due } := by
    have : s.fire i cause onset time = a.scanDue i := rfl
    rw [this, State.scanDue, if_neg (by simp [hd]), hai]
  have he : a.dueEntry i = s.entryNow i := by
    simp only [State.dueEntry, hai]; rfl
  rw [ht, he]
  refine ⟨?_, ?_, rfl⟩
  · show (a.setSlot i x.raiseDue).slot i = _
    rw [State.slot_setSlot_self, Slot.raiseDue_fired]
  · intro j hj
    have haj : (a.setSlot i x.raiseDue).slot j = (s.slot j).hear i (.opening time) := by
      rw [State.slot_setSlot_ne _ _ _ _ hj]
      simp only [a, State.tellFollowers_slot, State.slot_setSlot_ne _ _ _ _ hj]; rfl
    exact ⟨fun h => (haj.trans (Slot.hear_of_linksTo i _ h)),
      fun h => (haj.trans (Slot.hear_of_not_linksTo i _ h))⟩

end Sys2Proof.Machine
end

