-- ==== Sys2Proof/Laws/Effects.lean ====
section
/-! SUPPORT. The watch, due scans, resolved scans, the lines, the events, faults and the taking of an
order: what each shared operation does, in the terms of Safety.lean. -/

namespace Sys2Proof.Machine

variable (s : State) (i j : Fin 32)

theorem State.setSlot_setSlot (x y : Slot) : (s.setSlot i x).setSlot i y = s.setSlot i y := by
  simp [State.setSlot, Vector.set_set]

theorem State.setSlot_swap {i j : Fin 32} (h : i ≠ j) (x y : Slot) :
    (s.setSlot i x).setSlot j y = (s.setSlot j y).setSlot i x := by
  have : ((s.setSlot i x).setSlot j y).slots = ((s.setSlot j y).setSlot i x).slots :=
    State.slots_ext fun k => by
      simp only [State.slot_setSlot]
      by_cases hi : k = i
      · have hj : k ≠ j := fun e => h (hi.symm.trans e)
        rw [if_neg hj, if_pos hi, if_pos hi]
      · rw [if_neg hi, if_neg hi]
  unfold State.setSlot at this ⊢
  simp only at this ⊢
  rw [this]

/-! ### The watch -/

/-- Entering the watch does what R18 says, for an ARM with no entry waiting. -/
theorem State.enterWatch_entersWatch (a : ArmOrder) (time : Timestamp)
    (hk : (s.slot i).order.kind = .arm a) (h : s.NoEntry i) :
    EntersWatch s (s.enterWatch i time) i a time := by
  have hw : ∀ x, (s.setSlot i x).word = s.word := fun _ => rfl
  unfold State.enterWatch EntersWatch
  simp only [hk]
  by_cases hc : a.pattern.holds s.word = true
  · simp only [hc, if_true]
    cases hm : a.pattern.fireMode
    · simp only [State.conditionTrue, beq_iff_eq]
      by_cases hz : a.holdTime = 0
      · simp only [hz, if_true]
        have hf := State.fire_fires (s.setSlot i
          { s.slot i with gateTarget := none, gateEvents := [], offered := [] }) i .pattern time time h
        obtain ⟨h1, h2, h3⟩ := hf
        refine ⟨?_, ?_, ?_⟩
        · rw [h1]; simp [Slot.afterFire, State.fireRecord, Slot.gridGoesOn, State.word]
        · intro k hk'
          have := h2 k hk'
          rwa [State.slot_setSlot_ne _ _ _ _ hk'] at this
        · rw [h3]; simp [State.entryNow, State.setSlot, State.slot, State.moment]
      · simp only [hz, if_false, State.setSlot_setSlot, State.slot_setSlot_self]; rfl
    · simp only [State.setSlot_setSlot, State.slot_setSlot_self]; rfl
  · simp only [hc, State.setSlot_setSlot, State.slot_setSlot_self]; rfl

/-! ### Due and resolved scans -/

theorem Slot.raiseDue_eq (x : Slot) :
    x.raiseDue =
      { x with dueCount := min (x.dueCount + 1) 65535
               becameDue := x.becameDue + 1
               intervalTimer := if x.order.scanCount ≠ 0
                   ∧ min (x.dueCount + 1) 65535 = x.order.scanCount.toNat
                 then none else x.intervalTimer
               nextDue := if x.order.scanCount ≠ 0
                   ∧ min (x.dueCount + 1) 65535 = x.order.scanCount.toNat
                 then none else x.nextDue } := by
  unfold Slot.raiseDue
  have h1 : ((x.scanCount != 0 && min (x.dueCount + 1) 65535 == x.scanCount) = true) ↔
      (x.order.scanCount ≠ 0 ∧ min (x.dueCount + 1) 65535 = x.order.scanCount.toNat) := by
    rw [Bool.and_eq_true, bne_iff_ne, beq_iff_eq, Ne, Slot.scanCount_eq_zero]; rfl
  by_cases h : x.order.scanCount ≠ 0 ∧ min (x.dueCount + 1) 65535 = x.order.scanCount.toNat
  · rw [if_pos h, if_pos h]; simp only [h1.2 h, if_true]
  · rw [if_neg h, if_neg h]; simp only [mt h1.1 h]; rfl

/-- A scan that becomes due with no entry waiting is inserted (R67). -/
theorem State.scanDue_becomesDue (h : s.NoEntry i) : BecomesDue s (s.scanDue i) i := by
  unfold BecomesDue State.scanDue
  simp only [(s.hasDue_false_iff i).2 h, Slot.raiseDue_eq]; rfl

/-- A scan that becomes due while an older one waits is counted missed (R67), and may end the
firing. -/
theorem State.scanDue_missed (h : ¬ s.NoEntry i) :
    s.scanDue i = (s.setSlot i (s.slot i).raiseDue.afterMiss).endFiring i := by
  have : s.hasDue i = true := by
    rw [← Bool.not_eq_false, State.hasDue_false_iff]; exact h
  simp [State.scanDue, this, Slot.countMiss_eq]

/-- Nothing ends while the firing has scans left (R53). -/
theorem State.endFiring_of_not_ending (h : (s.slot i).ending = false) : s.endFiring i = s := by
  simp [State.endFiring, h]

theorem Slot.ending_iff (x : Slot) :
    x.ending = true ↔
      x.state = .running ∧ x.order.scanCount ≠ 0 ∧ x.resolved = x.order.scanCount.toNat := by
  simp only [Slot.ending, Bool.and_eq_true, beq_iff_eq, bne_iff_ne, Ne, Slot.scanCount_eq_zero,
    and_assoc]; rfl

theorem Slot.lastFiring_iff (x : Slot) :
    x.lastFiring = true ↔ x.firings = x.order.rearm.toNat := by
  simp only [Slot.lastFiring, beq_iff_eq]; omega

/-- After a request has been noted nothing more is noted. -/
theorem State.noteRequest_asked_fixed {y x : Slot} {m : Moment} (h : x.AskedFrom m y) :
    ¬ (y.Asks ∧ y.requestSince = none) := by
  rintro ⟨ha, hr⟩
  by_cases hx : x.Asks ∧ x.requestSince = none
  · have := h.1 hx.1 hx.2; rw [this] at hr; simp at hr
  · have := h.2 hx; rw [this] at ha hr; exact hx ⟨ha, hr⟩

theorem State.noteRequest_of_fixed (h : ¬ ((s.slot i).Asks ∧ (s.slot i).requestSince = none)) :
    s.noteRequest i = s := by
  obtain ⟨y, hy, ht⟩ := s.noteRequest_asked i
  rw [ht, hy.2 h, State.setSlot_slot_self]

/-- What follows a stored or dropped scan (R51, R53, R65): the slot has an entry waiting only on a grid,
and no more scans are resolved than became due. -/
theorem State.afterResolved_scanResolved
    (hb : (s.slot i).state = .running → (s.slot i).order.interval = 0 → s.NoEntry i)
    (hd : (s.slot i).state = .running → (s.slot i).order.scanCount ≠ 0 →
      (s.slot i).resolved ≤ (s.slot i).dueCount) :
    ScanResolved s (s.afterResolved i) i := by
  unfold ScanResolved
  simp only
  by_cases he : (s.slot i).state = .running ∧ (s.slot i).order.scanCount ≠ 0
      ∧ (s.slot i).resolved = (s.slot i).order.scanCount.toNat
  · rw [if_pos he]
    have he' := (Slot.ending_iff _).2 he
    by_cases hl : (s.slot i).firings = (s.slot i).order.rearm.toNat
    · rw [if_pos hl]
      have hl' := (Slot.lastFiring_iff _).2 hl
      have h1 : s.endFiring i = s.closeSlot i .ok s.now := by
        simp [State.endFiring, he', hl']
      have hE := s.closeSlot_ends i .ok s.now
      have hst : ((s.closeSlot i .ok s.now).slot i).state = .closing := by
        have h := hE.1
        have hc : (s.endedRecord i .ok s.now).state = .closing := by
          unfold State.endedRecord; split <;> rfl
        by_cases hx : (s.endedRecord i .ok s.now).Asks
            ∧ (s.endedRecord i .ok s.now).requestSince = none
        · rw [h.1 hx.1 hx.2]; exact hc
        · rw [h.2 hx]; exact hc
      have h2 : s.afterResolved i = s.closeSlot i .ok s.now := by
        unfold State.afterResolved
        simp only [h1, hst]
        exact State.noteRequest_of_fixed _ _ (State.noteRequest_asked_fixed hE.1)
      rw [h2]; exact hE
    · rw [if_neg hl]
      have hl' : (s.slot i).lastFiring = false := by
        rw [← Bool.not_eq_true, Slot.lastFiring_iff]; exact hl
      obtain ⟨y, hy, ht⟩ := (s.setSlot i
        { s.slot i with intervalTimer := none, nextDue := none }).noteRequest_asked i
      rw [State.slot_setSlot_self] at hy
      rw [State.setSlot_setSlot] at ht
      have h1 : s.endFiring i = s.setSlot i y := by
        simp only [State.endFiring, he', hl', if_true]; exact ht
      refine ⟨y, hy, ?_⟩
      unfold State.afterResolved
      simp only [h1, State.slot_setSlot_self]
      have hys : y.state = (s.slot i).state ∧ y.order = (s.slot i).order
          ∧ y.dueCount = (s.slot i).dueCount := by
        by_cases hx : ({ s.slot i with intervalTimer := none, nextDue := none } : Slot).Asks
            ∧ (s.slot i).requestSince = none
        · rw [hy.1 hx.1 hx.2]; exact ⟨rfl, rfl, rfl⟩
        · rw [hy.2 hx]; exact ⟨rfl, rfl, rfl⟩
      have hge : (s.slot i).order.scanCount.toNat ≤ (s.slot i).dueCount := by
        have := hd he.1 he.2.1; omega
      have hno : (y.state == .running && y.intervalTime == 0
          && (y.scanCount == 0 || decide (y.dueCount < y.scanCount))) = false := by
        have h0 : (y.scanCount == 0) = false := by
          rw [beq_eq_false_iff_ne, Ne, Slot.scanCount_eq_zero, hys.2.1]; exact he.2.1
        have hlt : decide (y.dueCount < y.scanCount) = false := by
          rw [decide_eq_false_iff_not]; unfold Slot.scanCount; rw [hys.2.1, hys.2.2]; omega
        rw [h0, hlt]; simp
      rw [hno]
      simp only [Bool.false_eq_true, if_false]
      exact State.noteRequest_of_fixed _ _
        (by rw [State.slot_setSlot_self]; exact State.noteRequest_asked_fixed hy)
  · rw [if_neg he]
    have he' : (s.slot i).ending = false := by
      rw [← Bool.not_eq_true, Slot.ending_iff]; exact he
    have h1 := s.endFiring_of_not_ending i he'
    have hcond : ((s.slot i).state == .running && (s.slot i).intervalTime == 0
        && ((s.slot i).scanCount == 0
          || decide ((s.slot i).dueCount < (s.slot i).scanCount))) = true ↔
        ((s.slot i).state = .running ∧ (s.slot i).order.interval = 0
          ∧ ((s.slot i).order.scanCount = 0
            ∨ (s.slot i).dueCount < (s.slot i).order.scanCount.toNat)) := by
      simp only [Bool.and_eq_true, Bool.or_eq_true, beq_iff_eq, decide_eq_true_eq,
        Slot.scanCount_eq_zero, Slot.intervalTime_eq_zero, and_assoc]; rfl
    unfold State.afterResolved
    simp only [h1]
    by_cases hc : (s.slot i).state = .running ∧ (s.slot i).order.interval = 0
        ∧ ((s.slot i).order.scanCount = 0
          ∨ (s.slot i).dueCount < (s.slot i).order.scanCount.toNat)
    · rw [if_pos hc]
      have hdue := s.scanDue_becomesDue i (hb hc.1 hc.2.1)
      rw [if_pos (hcond.2 hc)]
      have hslot : (s.scanDue i).slot i = (s.slot i).raiseDue := by
        rw [hdue, Slot.raiseDue_eq]
        exact State.slot_setSlot_self _ _ _
      have hno : ¬ (((s.scanDue i).slot i).Asks ∧ ((s.scanDue i).slot i).requestSince = none) := by
        rintro ⟨ha, -⟩
        rw [hslot, Slot.raiseDue_eq] at ha
        rcases ha.2.1 with h | h
        · exact he h
        · simp only at h; rw [hc.1] at h; cases h
      rw [State.noteRequest_of_fixed _ _ hno]; exact hdue
    · rw [if_neg hc, if_neg (mt hcond.1 hc)]
      exact s.noteRequest_asked i

/-! ### The completion of a firing (R54, R61) -/

/-- A firing that can return to the watch awaits its completion. -/
theorem State.canReturn_iff : s.canReturn i = true ↔ s.AwaitsCompletion i := by
  have kind : ∀ x : Slot, x.returns = true ↔ ∃ a, x.order.kind = .arm a := by
    intro x; unfold Slot.returns; cases x.order.kind <;> simp
  simp only [State.canReturn, State.AwaitsCompletion, Bool.and_eq_true, beq_iff_eq,
    State.isRunning_iff, Slot.ending_iff, Option.isNone_iff_eq_none, kind, and_assoc]

/-- The return to the watch is that of R54 and R37, for a slot with no entry waiting. -/
theorem State.returnToWatch_completes (a : ArmOrder) (hk : (s.slot i).order.kind = .arm a)
    (h : s.NoEntry i) : CompletesFiring s (s.returnToWatch i) i := by
  refine ⟨a, hk, ?_⟩
  have hr : (s.slot i).restartArm = a.timerStart := by
    simp [Slot.restartArm, hk, ArmOrder.startTimer, ArmOrder.timerStart]
  simp only [State.returnToWatch, hr]
  exact State.enterWatch_entersWatch _ _ _ _ (by simpa using hk) h

/-- A firing that awaits its completion completes first, and otherwise nothing happens (R61). -/
theorem State.completeFiring_completes (h : s.AwaitsCompletion i → s.NoEntry i) :
    (s.AwaitsCompletion i → CompletesFiring s (s.completeFiring i) i)
      ∧ (¬ s.AwaitsCompletion i → s.completeFiring i = s) := by
  unfold State.completeFiring
  refine ⟨fun hc => ?_, fun hc => if_neg (mt (s.canReturn_iff i).1 hc)⟩
  obtain ⟨a, ha⟩ := hc.2.2.2.2.2.2
  rw [if_pos ((s.canReturn_iff i).2 hc)]
  exact s.returnToWatch_completes i a ha (h hc)

/-! ### Events -/

/-- A change of EVENTS or EVENT_MASK sends the message by R141 and changes nothing else. -/
theorem State.withEvents_eventsBecome (e : EventLogic) :
    s.withEvents e = s.eventsBecome e.flags e.mask := by
  have h : (s.events.raises e && s.link.msi) = s.sendsMessage e.flags e.mask := by
    unfold EventLogic.raises State.sendsMessage EventLogic.active
    cases s.link.msi <;> simp
  unfold State.withEvents State.eventsBecome
  rw [h]
  by_cases hm : s.sendsMessage e.flags e.mask = true
  · simp [hm, State.issueMsi]
  · simp [hm]

/-- The number of a flag's bit (Table 8-8). -/
theorem EventFlag.bit_eq (f : EventFlag) :
    f.bit = BitVec.twoPow 5 (match f with
      | .doneReady => 0
      | .notice => 1
      | .stopped => 2
      | .fault => 3
      | .writeRefused => 4) := by
  cases f <;> decide

theorem State.setFlag_eq (f : EventFlag) (k : Nat) (h : f.bit = BitVec.twoPow 5 k) :
    s.setFlag f = s.flagged k := by
  unfold State.setFlag State.flagged
  rw [State.withEvents_eventsBecome, h]

theorem State.setFlag_doneReady : s.setFlag .doneReady = s.flagged 0 :=
  s.setFlag_eq _ _ (EventFlag.bit_eq _)
theorem State.setFlag_notice : s.setFlag .notice = s.flagged 1 :=
  s.setFlag_eq _ _ (EventFlag.bit_eq _)
theorem State.setFlag_stopped : s.setFlag .stopped = s.flagged 2 :=
  s.setFlag_eq _ _ (EventFlag.bit_eq _)
theorem State.setFlag_fault : s.setFlag .fault = s.flagged 3 :=
  s.setFlag_eq _ _ (EventFlag.bit_eq _)
theorem State.refuseWrite_flagged : s.refuseWrite = s.flagged 4 :=
  s.setFlag_eq _ _ (EventFlag.bit_eq _)

/-! ### Lines -/

/-- Bit `k` of the line word is the debounced level of line `k` (R6, scope 3.2). -/
theorem getLsbD_lineWord (v : Vector Line 16) (k : Fin 16) :
    (lineWord v).getLsbD k = v[k].level := by
  have step : ∀ (l : List (Fin 16)) (w : LineWord),
      (l.foldl (fun w i => if v[i].level then w ||| BitVec.twoPow 16 i else w) w).getLsbD k
        = (w.getLsbD k || (decide (k ∈ l) && v[k].level)) := by
    intro l
    induction l with
    | nil => intro w; simp
    | cons a l ih =>
      intro w
      rw [List.foldl_cons, ih]
      by_cases hka : k = a
      · subst hka
        by_cases hv : v[k].level = true
        · rw [if_pos hv, hv]; simp
        · rw [if_neg hv, Bool.not_eq_true _ |>.mp hv]; simp
      · have hne : k.val ≠ a.val := fun e => hka (Fin.ext e)
        have ht : (BitVec.twoPow 16 a.val).getLsbD k.val = false := by
          rw [BitVec.getLsbD_twoPow]; simp [hne.symm]
        by_cases hv : v[a].level = true
        · rw [if_pos hv, BitVec.getLsbD_or, ht]; simp [hka]
        · rw [if_neg hv]; simp [hka]
  rw [lineWord, step]
  simp

/-- Committing new lines does what R6 and R8 say. -/
theorem State.commitLines_linesBecome (v : Vector Line 16) (sameMoment : Bool) :
    LinesBecome s (s.commitLines v sameMoment) v sameMoment := by
  unfold State.commitLines
  simp only
  by_cases h : s.word ^^^ lineWord v = 0
  · have hb : (s.word ^^^ lineWord v == 0) = true := by rw [beq_iff_eq]; exact h
    simp only [hb, if_true]
    exact ⟨rfl, rfl, fun _ => ⟨rfl, rfl⟩, fun c => absurd h c⟩
  · have hb : (s.word ^^^ lineWord v == 0) = false := by rw [beq_eq_false_iff_ne]; exact h
    simp only [hb]
    unfold State.makeLineEvent
    have hj : ({ s with lines.lines := v } : State).joinable (s.word ^^^ lineWord v) sameMoment
        = s.joinable (s.word ^^^ lineWord v) sameMoment := rfl
    have hw : ({ s with lines.lines := v } : State).word = lineWord v := rfl
    rw [if_neg (by simp), hj, hw]
    cases hc : s.joinable (s.word ^^^ lineWord v) sameMoment with
    | none =>
      refine ⟨rfl, rfl, fun c => absurd c h, fun _ => ?_⟩
      rw [hc]
      refine ⟨rfl, fun j => ?_⟩
      exact State.slot_mapSlots _ j (Slot.offer _)
    | some old =>
      refine ⟨rfl, rfl, fun c => absurd c h, fun _ => ?_⟩
      rw [hc]
      refine ⟨rfl, fun j => ?_⟩
      refine (State.slot_mapSlots _ j (Slot.offerJoined _ _)).trans ?_
      show Slot.offerJoined old _ (s.slot j) = _
      unfold Slot.offerJoined Slot.offer
      by_cases hw : (s.slot j).isWatching = true
      · by_cases hl : (s.slot j).offered.getLast? = some old <;> simp [hw, hl]
      · simp [hw]

theorem Line.retime_retimed (l : Line) (time : Byte) : l.retime time = l.retimed time := by
  unfold Line.retime Line.retimed
  cases h : l.qualifying with
  | none => simp
  | some n =>
    simp only [Option.isNone_some, Bool.false_eq_true, if_false, beq_iff_eq]
    by_cases ht : time = 0
    · rw [if_pos ht, if_pos ht, ht]
    · rw [if_neg ht, if_neg ht]

theorem Line.resume_resumed (l : Line) : l.resume = l.resumed := by
  unfold Line.resume Line.resumed
  simp only [beq_iff_eq]

/-- The lines in a mask take their times as R11 says. -/
theorem State.retimeLines_linesBecome (mask : LineWord) (times : Fin 16 → Byte) :
    ∃ v, LinesBecome s (s.retimeLines mask times) v false
      ∧ ∀ l : Fin 16,
        (mask.getLsbD l = true → v[l] = s.lines.lines[l].retimed (times l))
        ∧ (mask.getLsbD l = false → v[l] = s.lines.lines[l]) := by
  refine ⟨_, s.commitLines_linesBecome _ false, fun l => ⟨fun h => ?_, fun h => ?_⟩⟩
  · have : (Vector.ofFn fun i : Fin 16 => if mask.getLsbD i then s.lines.lines[i].retime (times i)
        else s.lines.lines[i])[l] = s.lines.lines[l].retime (times l) := by
      simp only [Fin.getElem_fin, Vector.getElem_ofFn]; rw [if_pos h]
    rw [this, Line.retime_retimed]
  · simp only [Fin.getElem_fin, Vector.getElem_ofFn]; rw [if_neg (Bool.eq_false_iff.1 h)]

/-- The frozen lines resume as R13 says. -/
theorem State.resumeLines_linesBecome :
    ∃ v, LinesBecome { s with lines.latest := none } s.resumeLines v false
      ∧ ∀ l : Fin 16, v[l] = s.lines.lines[l].resumed := by
  refine ⟨_, State.commitLines_linesBecome _ _ false, fun l => ?_⟩
  simp [Line.resume_resumed]

/-! ### Faults -/

/-- Entering FAULTED does what R152 says. -/
theorem State.enterFaulted_entersFaulted (code : FaultCode) :
    EntersFaulted s (s.enterFaulted code) code := by
  unfold State.enterFaulted
  rw [State.setFlag_fault]
  refine ⟨fun l => ?_, rfl, rfl⟩
  simp [State.flagged, State.eventsBecome, State.freezeLines, Line.freeze]

/-! ### Taking an order -/

theorem State.takeHeld_afterTaking : s.takeHeld = s.afterTaking := rfl

theorem State.takeAndAnswer_answered (h : HeldOrder) (status : Status) :
    s.takeAndAnswer h status = s.answered h.image.tag status h.detail := rfl

theorem find_slotNumbers_none {p : Fin 32 → Bool} :
    slotNumbers.find? p = none ↔ ∀ i, p i = false := by
  simp [slotNumbers]

theorem find_slotNumbers_some {p : Fin 32 → Bool} (i : Fin 32) :
    slotNumbers.find? p = some i ↔ p i = true ∧ ∀ j, j < i → p j = false := by
  have key : ∀ (l : List (Fin 32)), l.Pairwise (· < ·) →
      (l.find? p = some i ↔ i ∈ l ∧ p i = true ∧ ∀ j ∈ l, j < i → p j = false) := by
    intro l
    induction l with
    | nil => simp
    | cons a l ih =>
      intro hp
      rw [List.pairwise_cons] at hp
      rw [List.find?_cons]
      cases ha : p a
      · rw [ih hp.2]
        constructor
        · rintro ⟨h1, h2, h3⟩
          refine ⟨List.mem_cons_of_mem _ h1, h2, fun j hj hlt => ?_⟩
          rcases List.mem_cons.1 hj with rfl | hj
          · exact ha
          · exact h3 j hj hlt
        · rintro ⟨h1, h2, h3⟩
          rcases List.mem_cons.1 h1 with rfl | h1
          · rw [ha] at h2; cases h2
          · exact ⟨h1, h2, fun j hj => h3 j (List.mem_cons_of_mem _ hj)⟩
      · constructor
        · intro h
          cases h
          refine ⟨List.mem_cons_self, ha, fun j hj hlt => ?_⟩
          rcases List.mem_cons.1 hj with rfl | hj
          · exact absurd hlt (lt_irrefl _)
          · exact absurd hlt (not_lt.2 (le_of_lt (hp.1 j hj)))
        · rintro ⟨h1, h2, h3⟩
          rcases List.mem_cons.1 h1 with rfl | h1
          · rfl
          · have := h3 a List.mem_cons_self (hp.1 i h1)
            rw [ha] at this; cases this
  have hl : slotNumbers.Pairwise (· < ·) := List.pairwise_lt_finRange 32
  rw [key _ hl]
  simp [mem_slotNumbers]

/-- The slot chosen at admission is the lowest-numbered FREE one (R41). -/
theorem State.lowestFree_some : s.lowestFree = some i ↔ s.LowestFree i := by
  unfold State.lowestFree State.LowestFree
  rw [find_slotNumbers_some]
  simp [Slot.occupied]

/-- A tag is held by no slot (R42). -/
theorem State.holderOf_none (tag : BitVec 16) :
    s.holderOf tag = none ↔ ∀ j, ¬ s.Holds j tag := by
  unfold State.holderOf State.Holds
  rw [find_slotNumbers_none]
  simp [Slot.occupied]

/-- The slot found for a tag holds it (R42). -/
theorem State.holds_of_holderOf {tag : BitVec 16} {i : Fin 32} (h : s.holderOf tag = some i) :
    s.Holds i tag := by
  have := List.find?_some h
  simpa [Slot.occupied, State.Holds] using this

/-- With distinct tags the slot found is the one that holds the tag (R42). -/
theorem State.holderOf_some_of_holds {tag : BitVec 16} {k : Fin 32} (hd : TagsDistinct s)
    (h : s.Holds k tag) : s.holderOf tag = some k := by
  cases hc : s.holderOf tag with
  | none => exact absurd h ((s.holderOf_none tag).1 hc k)
  | some i =>
    have hi := s.holds_of_holderOf hc
    rw [hd i k hi.1 h.1 (hi.2.trans h.2.symm)]

/-- Every slot is FREE (R121, R150). -/
theorem State.allFree_iff : s.allFree = true ↔ ∀ j, (s.slot j).state = .free := by
  simp [State.allFree, slotNumbers, Slot.occupied]

theorem State.hasFollower_false_iff : s.hasFollower i = false ↔ ∀ j, ¬ (s.slot j).LinksTo i := by
  simp [State.hasFollower, slotNumbers, Slot.follows, Slot.LinksTo]

theorem Fence.settle_takes (f : Fence) (status : Status) (time : Timestamp) :
    f.settle status time = f.takes status time := by
  unfold Fence.settle Fence.takes
  simp only [Option.isNone_iff_eq_none]

/-- The fence settles when every slot is FREE (R121). -/
theorem State.fenceIfEmpty_of_allFree (h : ∀ j, (s.slot j).state = .free) :
    s.fenceIfEmpty = { s with fetch.fence := s.fetch.fence.map fun f => f.takes .ok s.now } := by
  simp [State.fenceIfEmpty, (s.allFree_iff).2 h, State.settleFence, Fence.settle_takes]

theorem State.fenceIfEmpty_of_occupied (h : (s.slot i).state ≠ .free) : s.fenceIfEmpty = s := by
  have : s.allFree = false := by
    rw [← Bool.not_eq_true, State.allFree_iff]; exact fun c => h (c i)
  simp [State.fenceIfEmpty, this]

/-! ### Pages -/

theorem Slot.resolveOne_eq (x : Slot) (firing : Byte) : x.resolveOne firing = x.resolvedAfter firing := by
  unfold Slot.resolveOne Slot.resolvedAfter Slot.firingIndex
  simp only [Bool.and_eq_true, bne_iff_ne, beq_iff_eq, Ne, Slot.scanCount_eq_zero]

theorem Slot.inherited_eq (x : Slot) (firing : Byte) : x.inherited firing = x.carriedFor firing := by
  unfold Slot.inherited Slot.carriedFor
  simp only [beq_iff_eq]

theorem State.addRecord_pageWith (p : OpenPage) (r : ScanResult) :
    p.addRecord (scanRecordSize r.values.length) r.timestamp (s.run.copy.flushInterval != 0)
      = s.pageWith p r := by
  unfold OpenPage.addRecord State.pageWith scanRecordSize
  simp only [beq_iff_eq, bne_iff_ne]
  by_cases h : p.scans = 0
  · by_cases hf : s.run.copy.flushInterval = 0 <;> simp [h, hf]
  · simp [h]

/-- A store is the step of R95 followed by the resolution at the slot. -/
theorem State.storeResult_eq (r : ScanResult) (p : OpenPage) :
    s.storeResult r p = (s.afterStore r p s.pages.cache).afterResolved r.slot := by
  unfold State.storeResult State.afterStore
  simp only [State.addRecord_pageWith, Slot.resolveOne_eq, Slot.inherited_eq]
  rfl

/-- A drop is the step of R96 and R97 followed by the resolution at the slot. -/
theorem State.dropResult_eq (r : ScanResult) :
    s.dropResult r = (s.afterDrop r).afterResolved r.slot := by
  unfold State.dropResult State.afterDrop
  simp only [Slot.resolveOne_eq, Slot.inherited_eq]
  congr 1
  unfold State.dryDrop State.reportDry latchOccurrence
  obtain ⟨_, _, _, _, _, _, ⟨_, _, _, dry, _⟩, ⟨_, _, _, notice, _, _, _⟩, _, _, _⟩ := s
  cases dry <;> cases notice <;> rfl

/-! ### Starts -/

/-- The arm timer starts as R24 says. -/
theorem ArmOrder.startTimer_timerStart (a : ArmOrder) : a.startTimer = a.timerStart := by
  simp [ArmOrder.startTimer, ArmOrder.timerStart]

/-- A start that ends in STOPPED leaves what R145 to R147 say. -/
theorem State.endStart_startEnded (r : SetupResult) : s.endStart r = s.startEnded r := by
  unfold State.endStart State.startEnded; rw [State.setFlag_stopped]

theorem misaligned_iff (n : Nat) : (n % 64 != 0) = true ↔ ¬ 64 ∣ n := by
  rw [bne_iff_ne, Nat.dvd_iff_mod_eq_zero]

theorem ringSizeOk_iff (z : BitVec 16) :
    ringSizeOk z = true ↔ ∃ k ∈ [4, 5, 6, 7, 8, 9, 10, 11, 12], z.toNat = 2 ^ k := by
  unfold ringSizeOk; rw [List.contains_iff_mem]; simp

theorem pageSizeOk_iff (z : BitVec 32) :
    pageSizeOk z = true ↔ ∃ k ∈ [10, 11, 12, 13, 14, 15, 16], z.toNat = 2 ^ k := by
  unfold pageSizeOk; rw [List.contains_iff_mem]; simp

theorem Channel.settleOk_false_iff (c : Channel) :
    (¬ c.settleOk = true) ↔ c.enabled = true ∧ (c.settle.toNat < 1 ∨ 64 < c.settle.toNat) := by
  cases h : c.enabled <;> simp [Channel.settleOk, h]; omega

/-- The setup result is the first failed check of Table 8-4 (R146). -/
theorem SetupCopy.check_verdict (c : SetupCopy) : c.check = c.verdict := by
  have fails : ∀ {p : Bool} {l : List Nat} {x : Nat}, (p = true ↔ ∃ k ∈ l, x = 2 ^ k) →
      ((!p) = true ↔ ∀ k ∈ l, x ≠ 2 ^ k) := fun h => by
    rw [Bool.not_eq_true', ← Bool.not_eq_true, h]; simp
  have rings : (!(ringSizeOk c.orderSize && ringSizeOk c.poolSize && ringSizeOk c.doneSize)) = true
      ↔ ∃ size ∈ [c.orderSize, c.poolSize, c.doneSize],
          ∀ k ∈ [4, 5, 6, 7, 8, 9, 10, 11, 12], size.toNat ≠ 2 ^ k := by
    rw [Bool.not_and, Bool.not_and, Bool.or_eq_true, Bool.or_eq_true, fails (ringSizeOk_iff _),
      fails (ringSizeOk_iff _), fails (ringSizeOk_iff _)]
    simp only [List.mem_cons, List.not_mem_nil, or_false, exists_eq_or_imp, exists_eq_left, or_assoc]
  have settles : (!(c.channels.toList.all Channel.settleOk)) = true
      ↔ ∃ ch ∈ c.channels.toList, ch.enabled = true ∧ (ch.settle.toNat < 1 ∨ 64 < ch.settle.toNat) := by
    rw [Bool.not_eq_true', ← Bool.not_eq_true, List.all_eq_true, Classical.not_forall]
    refine exists_congr fun ch => ?_
    rw [Classical.not_imp, Channel.settleOk_false_iff]
  have aligned : (c.orderBase.toNat % 64 != 0 || c.poolBase.toNat % 64 != 0
      || c.doneBase.toNat % 64 != 0) = true
        ↔ ¬ (64 ∣ c.orderBase.toNat ∧ 64 ∣ c.poolBase.toNat ∧ 64 ∣ c.doneBase.toNat) := by
    simp only [Bool.or_eq_true, misaligned_iff]; tauto
  unfold SetupCopy.check SetupCopy.verdict
  simp only [aligned, rings, fails (pageSizeOk_iff c.pageSize), settles, beq_iff_eq]

end Sys2Proof.Machine
end

