-- ==== Sys2Proof/Laws/Due.lean ====
section
/-! SUPPORT. Which events are due (log entry 14): what holds time back, in the terms of Safety.lean. -/

namespace Sys2Proof.Machine

variable (s : State) (i : Fin 32)

theorem timerReached_iff (timer : Option Nat) (limit : Nat) :
    timerReached timer limit = true ↔ Reached timer limit := by
  cases timer <;> simp [timerReached, Reached]

theorem Slot.isWatching_iff (x : Slot) : x.isWatching = true ↔ ∃ w, x.state = .watching w := by
  unfold Slot.isWatching; cases x.state <;> simp

theorem Slot.handedOn_iff (x : Slot) : x.handedOn = true ↔ x.HandedOn := by
  unfold Slot.handedOn Slot.HandedOn
  simp only [Bool.and_eq_true, beq_iff_eq, Bool.not_eq_true', Option.isNone_iff_eq_none, and_assoc]
  by_cases h : x.endReason = some .ok <;> simp [h]

/-- The events of a slot in its watch, at its gate, in its delay and on its grid that are due. -/
theorem State.watchDue_iff :
    (s.canTakeLineEvent i || s.canHoldExpire i || s.canArmExpire i || s.canDelayExpire i
      || (s.isRunning && (s.slot i).nextGateEvent.isSome) || s.canIntervalExpire i) = true
        ↔ s.WatchDue i := by
  have gate : (s.slot i).nextGateEvent.isSome = true ↔
      (s.slot i).state = .gated ∧ (s.slot i).gateEvents ≠ [] := by
    unfold Slot.nextGateEvent
    by_cases h : (s.slot i).state = .gated
    · cases hg : (s.slot i).gateEvents <;> simp [h]
    · simp [h]
  have hold : ∀ n, (s.slot i).holdTime ≤ n ↔
      ∀ a, (s.slot i).order.kind = .arm a → a.holdTime.toNat ≤ n := by
    intro n; unfold Slot.holdTime; cases (s.slot i).order.kind <;> simp
  have limit : ∀ n, (s.slot i).armLimit ≤ n ↔
      ∀ a, (s.slot i).order.kind = .arm a → a.armTimeout.toNat * 1000 ≤ n := by
    intro n; unfold Slot.armLimit; cases (s.slot i).order.kind <;> simp [Config.perMilli]
  have delay : ∀ n, (s.slot i).startDelay ≤ n ↔
      ∀ d, (s.slot i).order.kind = .sample d → d.toNat ≤ n := by
    intro n; unfold Slot.startDelay; cases (s.slot i).order.kind <;> simp
  have interval : (s.slot i).intervalTime ≠ 0 ↔ (s.slot i).order.interval ≠ 0 :=
    not_congr (Slot.intervalTime_eq_zero _)
  unfold State.WatchDue State.canTakeLineEvent State.canHoldExpire State.canArmExpire
    State.canDelayExpire State.canIntervalExpire
  simp only [Bool.or_eq_true, Bool.and_eq_true, State.isRunning_iff, Slot.isWatching_iff, beq_iff_eq,
    bne_iff_ne, Bool.not_eq_true', List.isEmpty_eq_false_iff, timerReached_iff, Reached, hold, limit,
    delay, gate, interval, and_assoc, ← and_or_left, or_assoc]
  rfl

/-- The events of the hand-on of a slot that are due. -/
theorem State.handOnDue_iff :
    (s.canTakeFired i || s.canReturn i || s.canComplete i || s.canTakeOrderDone i || s.canSkipClose i
      || (s.closablePage i).isSome
      || ((s.expiredPage i).any fun p => p.expired.any fun w => w.arose == s.moment)) = true
        ↔ s.HandOnDue i := by
  have close : (s.closablePage i).isSome = true ↔
      s.Live ∧ s.HasRoom ∧ (s.slot i).pendingFired = none ∧ (s.slot i).closingPage ≠ none := by
    unfold State.closablePage
    rw [← State.isLive_iff, ← State.postRoom_iff, ← Option.isNone_iff_eq_none,
      ← Option.isSome_iff_ne_none]
    split <;> simp_all
  have expiry : ((s.expiredPage i).any fun p => p.expired.any fun w => w.arose == s.moment) = true ↔
      s.Live ∧ ∃ p w, (s.slot i).openPage = some p ∧ p.expired = some w ∧ w.arose = s.moment
        ∧ s.PageWriterTakes w.arose := by
    unfold State.expiredPage
    rw [← State.isLive_iff]
    by_cases hl : s.isLive = true
    · cases hp : (s.slot i).openPage with
      | none => simp [hl]
      | some p =>
        cases hw : p.expired with
        | none => simp [hl, hw]
        | some w =>
          by_cases hm : s.mayWork w.arose = true
          · simp [hl, hw, hm, (s.mayWork_iff _).1 hm]
          · simp [hl, hw, hm, mt (s.mayWork_iff _).2 hm]
    · simp [hl]
  unfold State.HandOnDue State.canTakeFired State.canComplete State.canTakeOrderDone
    State.canSkipClose
  simp only [Bool.or_eq_true, Bool.and_eq_true, State.isLive_iff, State.postRoom_iff,
    State.canReturn_iff, Slot.handedOn_iff, Slot.wantsClose_iff, beq_iff_eq, Bool.not_eq_true',
    State.hasFollower_false_iff, Option.isNone_iff_eq_none, Option.isSome_iff_ne_none, close, expiry,
    and_assoc]
  rw [or_comm (a := s.Live ∧ _)]
  simp only [← and_or_left, or_assoc]

/-- The steps of the converter that are due. -/
theorem State.converterDue_iff :
    (s.canGrant || s.settledScan.isSome || s.convertedScan.isSome) = true ↔ s.ConverterDue := by
  have filtered : ∀ p : Conversion → Bool,
      (if s.isLive then s.sched.conversion.filter p else none).isSome = true ↔
        s.Live ∧ ∃ c, s.sched.conversion = some c ∧ p c = true := by
    intro p
    rw [← State.isLive_iff]
    cases s.sched.conversion with
    | none => simp
    | some c => by_cases hl : s.isLive = true <;> by_cases hp : p c = true <;>
        simp [hl, hp, Option.filter]
  have settled : s.settledScan.isSome = true ↔ s.Live ∧ ∃ c n, s.sched.conversion = some c
      ∧ c.phase = .settling n ∧ s.settleTime c ≤ n := by
    unfold State.settledScan
    rw [filtered]
    refine and_congr_right fun _ => exists_congr fun c => ?_
    cases c.phase <;> simp
  have converted : s.convertedScan.isSome = true ↔ s.Live ∧ ∃ c n, s.sched.conversion = some c
      ∧ c.phase = .converting n ∧ 2 ≤ n := by
    unfold State.convertedScan Config.conversionTime
    rw [filtered]
    refine and_congr_right fun _ => exists_congr fun c => ?_
    cases c.phase <;> simp
  unfold State.ConverterDue State.canGrant Config.stagingSize
  simp only [Bool.or_eq_true, Bool.and_eq_true, State.isLive_iff, settled, converted,
    Option.isNone_iff_eq_none, decide_eq_true_eq, Bool.not_eq_true', List.isEmpty_eq_false_iff,
    and_assoc, ← and_or_left, or_assoc]
  rfl

theorem State.mayTake_iff : s.mayTake = true ↔ s.run.runState = .running
    ∧ s.fetch.state = .holding ∧ s.window.orderTail ≠ s.fetch.head := by
  simp [State.mayTake, State.isRunning, and_assoc]

theorem HeldOrder.isValid_iff (h : HeldOrder) (kind : Byte) :
    h.isValid kind = true ↔ h.detail = 0 ∧ h.image.kind = kind := by
  simp [HeldOrder.isValid]

/-- A held order that satisfies `p` can be taken under the further condition `c`. -/
theorem State.held_iff (p : HeldOrder → Bool) (c : Bool) :
    (if s.mayTake && c then s.fetch.held.filter p else none).isSome = true ↔
      ∃ h, s.MayTake h ∧ c = true ∧ p h = true := by
  unfold State.MayTake
  cases hh : s.fetch.held with
  | none => simp
  | some h =>
    have : (if s.mayTake && c then (some h).filter p else none).isSome = true ↔
        s.mayTake = true ∧ c = true ∧ p h = true := by
      cases s.mayTake <;> cases c <;> by_cases hp : p h = true <;> simp [hp, Option.filter]
    rw [this, State.mayTake_iff]
    simp only [Option.some.injEq]
    constructor
    · rintro ⟨⟨h1, h2, h3⟩, h4, h5⟩; exact ⟨h, ⟨h1, h2, rfl, h3⟩, h4, h5⟩
    · rintro ⟨_, ⟨h1, h2, rfl, h3⟩, h4, h5⟩; exact ⟨⟨h1, h2, h3⟩, h4, h5⟩

/-- A held order can be taken. -/
theorem State.takingDue_iff :
    s.takingDue = true ↔ ∃ h, s.MayTake h
      ∧ ((h.detail = 0 ∧ (h.image.kind = 1 ∨ h.image.kind = 2) ∧ s.HasRoom
            ∧ ∃ j, (s.slot j).state = .free)
        ∨ (h.detail = 0 ∧ (h.image.kind = 3 ∨ h.image.kind = 4) ∧ s.HasRoom)
        ∨ (h.detail = 0 ∧ h.image.kind = 5)
        ∨ (h.detail ≠ 0 ∧ s.HasRoom)) := by
  have free : s.lowestFree.isSome = true ↔ ∃ j, (s.slot j).state = .free := by
    simp [State.lowestFree, slotNumbers, Slot.occupied]
  have slot : ∀ kind, s.maySlot kind = true ↔ ∃ h, s.MayTake h ∧ (s.HasRoom
      ∧ ∃ j, (s.slot j).state = .free) ∧ h.detail = 0 ∧ h.image.kind = kind := by
    intro kind
    have : s.maySlot kind = (if s.mayTake && (s.postRoom && s.lowestFree.isSome) then
        s.fetch.held.filter (HeldOrder.isValid kind) else none).isSome := by
      unfold State.maySlot State.heldIs
      cases s.fetch.held with
      | none => cases s.mayTake <;> simp
      | some h => cases s.mayTake <;> cases s.postRoom <;> cases s.lowestFree.isSome <;>
          by_cases hp : h.isValid kind = true <;> simp [hp, Option.filter]
    rw [this, State.held_iff, Bool.and_eq_true, free, State.postRoom_iff]
    simp only [HeldOrder.isValid_iff]
  have take : ∀ p, (s.takeable p).isSome = true ↔
      ∃ h, s.MayTake h ∧ s.HasRoom ∧ p h = true := by
    intro p; unfold State.takeable; rw [State.held_iff, State.postRoom_iff]
  have fence : s.takeableFence.isSome = true ↔
      ∃ h, s.MayTake h ∧ h.detail = 0 ∧ h.image.kind = 5 := by
    have := s.held_iff (HeldOrder.isValid kindFence) true
    rw [Bool.and_true] at this
    unfold State.takeableFence
    rw [this]
    simp only [true_and, HeldOrder.isValid_iff, kindFence]
  unfold State.takingDue
  simp only [Bool.or_eq_true, slot, take, fence, HeldOrder.isValid_iff, bne_iff_ne, ← exists_or,
    ← and_or_left, kindArm, kindSample, kindCancel, kindLines]
  refine exists_congr fun h => and_congr_right fun _ => ?_
  generalize (∃ j, (s.slot j).state = .free) = room
  by_cases hd : h.detail = 0
  · simp only [hd, true_and, ne_eq, not_true_eq_false, false_and, and_false, or_false]
    tauto
  · simp only [hd, false_and, and_false, or_false, false_or, ne_eq, not_false_eq_true, true_and,
      and_true]

/-- The takings of orders, the events of a fence and the order reads that are due. -/
theorem State.orderDue_iff :
    (s.takingDue || (s.isLive && s.fetch.fence.any Fence.expired) || s.fenceRecord.isSome
      || s.canReadOrder) = true ↔ s.OrderDue := by
  have expired : (s.isLive && s.fetch.fence.any Fence.expired) = true ↔
      s.Live ∧ ∃ f, s.fetch.fence = some f ∧ f.outcome = none
        ∧ Reached f.timer (f.limit.toNat * 1000) := by
    rw [Bool.and_eq_true, State.isLive_iff]
    cases s.fetch.fence <;>
      simp [Fence.expired, timerReached_iff, Config.perMilli]
  have record : s.fenceRecord.isSome = true ↔
      s.Live ∧ ∃ f, s.fetch.fence = some f ∧ f.outcome ≠ none ∧ s.HasRoom := by
    unfold State.fenceRecord
    rw [← State.isLive_iff, ← State.postRoom_iff]
    cases s.fetch.fence with
    | none => simp
    | some f => cases ho : f.outcome <;> simp [Fence.record, ho]
  have read : s.canReadOrder = true ↔ s.run.runState = .running ∧ s.fetch.state = .idle
      ∧ s.window.orderTail ≠ s.fetch.head ∧ s.run.orderNumber ≠ 0xFFFFFFFF := by
    simp [State.canReadOrder, State.isRunning, and_assoc]
  rw [Bool.or_eq_true, Bool.or_eq_true, Bool.or_eq_true, s.takingDue_iff, expired, record, read]
  unfold State.OrderDue
  simp only [and_or_left, exists_or, or_assoc]

/-- The reads of descriptors, the notices, the writes of records and the moderation that are due. -/
theorem State.queueDue_iff :
    (s.canReadPool || s.canTakeNotice || s.canWriteRecord || s.canModerationExpire) = true
      ↔ s.QueueDue := by
  unfold State.QueueDue State.canReadPool State.canTakeNotice State.canWriteRecord
    State.canModerationExpire State.ringRoom State.unreleased Config.cacheSize
  simp only [Bool.or_eq_true, Bool.and_eq_true, State.isLive_iff, State.isRunning_iff,
    State.postRoom_iff, timerReached_iff, Option.isNone_iff_eq_none, Option.isSome_iff_ne_none,
    decide_eq_true_eq, Bool.not_eq_true', List.isEmpty_eq_false_iff, bne_iff_ne, and_assoc, or_assoc]

/-- The bus errors that are due. -/
theorem State.errorDue_iff : s.errorDue = true ↔ s.ErrorDue := by
  have answer : ∀ r : BusRead, r.answerDue = true ↔ r.AnswerDue := by
    intro r
    unfold BusRead.answerDue BusRead.AnswerDue Config.readTimeout
    rw [Bool.or_eq_true, decide_eq_true_eq]
  unfold State.errorDue State.ErrorDue State.setupReading State.orderReading State.poolReading
    State.canFault
  simp only [Bool.or_eq_true, Bool.and_eq_true, State.isLive_iff, beq_iff_eq, Option.any_eq_true,
    answer, Bool.not_eq_true', List.isEmpty_eq_false_iff, or_assoc]

theorem State.drained_iff : s.drained = true ↔ s.Drained := by
  unfold State.drained State.Drained
  simp only [Bool.and_eq_true, Option.isNone_iff_eq_none, State.allFree_iff, List.isEmpty_iff,
    and_assoc]

/-- Time is held back exactly while an event is due. -/
theorem State.eventDue_iff : s.eventDue = true ↔ s.Due := by
  have line : ((List.finRange 16).any fun l => s.canQualify l) = true ↔ ∃ l, s.LineDue l := by
    simp [State.canQualify, Line.qualified, State.LineDue, timerReached_iff, and_comm]
  have slots : slotNumbers.any s.slotDue = true ↔ ∃ i, s.WatchDue i ∨ s.HandOnDue i := by
    have : ∀ i, s.slotDue i = true ↔ s.WatchDue i ∨ s.HandOnDue i := by
      intro i
      rw [← s.watchDue_iff i, ← s.handOnDue_iff i]
      unfold State.slotDue
      simp only [Bool.or_eq_true]
      tauto
    simp [List.any_eq_true, mem_slotNumbers, this]
  unfold State.eventDue State.Due State.canStop
  rw [← s.converterDue_iff, ← s.orderDue_iff, ← s.queueDue_iff, ← s.errorDue_iff, ← s.drained_iff,
    ← line, ← slots, ← beq_iff_eq (a := s.run.runState), ← Bool.and_eq_true]
  simp only [← Bool.or_eq_true]
  rw [Bool.eq_iff_iff.symm.trans Iff.rfl]
  ac_rfl

end Sys2Proof.Machine
end

