-- ==== Sys2Proof/Tests/Slice0.lean ====
section
/-! SUPPORT. Tests. The first part runs single commands of the worked examples of spec/ (the table is
named at each test) with the values the spec prints; the second part shows, for each obligation with
hypotheses, states that meet them. -/

namespace Sys2Proof.Tests

set_option Elab.async false

open Sys2Proof Sys2Proof.Machine

/-! ### Well-formed commands -/

/-- A 32-bit write to CONTROL has a row of its own; as REGISTER_WRITE it is refused by the check. -/
theorem test_wellFormed_refuses_control_as_register_write :
    (Instr.registerWrite 0x04 .bits32 1).wellFormed = false := by decide +kernel

theorem test_wellFormed_refuses_done_head_as_register_write :
    (Instr.registerWrite 0x24 .bits32 1).wellFormed = false := by decide +kernel

/-- A malformed access to the same offset is a REGISTER_WRITE of the table. -/
theorem test_wellFormed_takes_malformed_access :
    (Instr.registerWrite 0x04 .bits16 1).wellFormed = true
      ∧ (Instr.registerWrite 0x14 .bits32 1).wellFormed = true := by decide +kernel

/-- The table spells no command as a word. -/
theorem test_no_word_spells_a_command : decodeTableWord 32 0x0A160001 = none := by decide +kernel

/-! ### Small states -/

/-- The state after a command that completes. -/
def after (c : Instr) (s : State) : State :=
  match exec c s with
  | .next t => t
  | .fault _ | .refused _ => s

/-- A record of bytes, byte 0 first. -/
def bytesOf (l : List Nat) : Nat := l.foldr (fun b n => b + 256 * n) 0

/-- A run's copy of the Setup Record: rings of 16, pages of 1024 bytes, every channel enabled. -/
def copy0 : SetupCopy :=
  { SetupCopy.cleared with
    orderBase := 0x1000, poolBase := 0x2000, doneBase := 0x3000, orderSize := 16, poolSize := 16,
    doneSize := 16, moderationCount := 3, pageSize := 1024, moderationDelay := 200,
    channels := Vector.replicate 12 { enabled := true, settle := 10 } }

/-- RUNNING with bus mastering enabled and every slot FREE. -/
def running : State :=
  { State.reset with
    run.runState := .running, run.copy := copy0, fetch.state := .idle, link.busMaster := true,
    window.run := true }

/-- The state at a timestamp. -/
def timed (t : Nat) (s : State) : State := { s with run.timestamp := BitVec.ofNat 48 t }

/-- The state in another run state. -/
def inState (r : RunState) (s : State) : State := { s with run.runState := r }

/-- The lines settled at the levels of a word. -/
def withWord (w : LineWord) (s : State) : State :=
  { s with
    lines.lines := Vector.ofFn fun l =>
      { raw := w.getLsbD l, debounce := 0, qualifying := none, level := w.getLsbD l } }

/-- The pattern of Table 2-6. -/
def bothHigh : Pattern := { mask := 0x0003, levels := 0x0003, combine := .all, fireMode := .level }

/-- The ARM order of Table 2-6. -/
def armHold : ArmOrder :=
  { pattern := bothHigh, holdTime := 200, armTimeout := 0, fireOnTimeout := false, gateTag := none }

/-- The ARM order of Table 2-7. -/
def armTimeout : ArmOrder :=
  { pattern := { mask := 0x0100, levels := 0x0100, combine := .any, fireMode := .level },
    holdTime := 1000, armTimeout := 3, fireOnTimeout := true, gateTag := none }

/-- The ARM order of Table 2-9. -/
def armEntry : ArmOrder :=
  { pattern := { mask := 0x0040, levels := 0x0040, combine := .any, fireMode := .entry },
    holdTime := 0, armTimeout := 0, fireOnTimeout := false, gateTag := none }

/-- An order with two scans 500 microseconds apart on channel A0 (order 1 of section 10.6). -/
def orderOf (kind : OrderKind) : OrderCopy :=
  { tag := 0x0010, number := 1, kind := kind, priority := 1, notifyFire := true, rearm := 0,
    scanCount := 2, interval := 500, entries := [{ channel := 0, averaging := 1 }] }

/-- An ARM slot in a state. -/
def armSlot (a : ArmOrder) (state : SlotState) : Slot := Slot.holding (orderOf (.arm a)) state

/-! ### Lines (Tables 1-2 and 1-4) -/

/-- Line L3 with a debounce time of 50 microseconds. -/
def withL3 (x : Line) : State := running.setLine 3 x

theorem test_departure_starts_qualification :
    let l := (after (.rawLevelChange 3 true false)
      (withL3 { raw := false, debounce := 50, qualifying := none, level := false })).lines.lines[3]
    l.qualifying = some 0 ∧ l.level = false ∧ l.raw = true := by decide +kernel

theorem test_short_pulse_is_rejected :
    let t := after (.rawLevelChange 3 false false)
      (timed 1020 (withL3 { raw := true, debounce := 50, qualifying := some 20, level := false }))
    t.lines.lines[3].qualifying = none ∧ t.lines.lines[3].level = false ∧ t.lines.latest = none := by
  decide +kernel

theorem test_qualified_edge_makes_event_at_1150 :
    let t := after (.qualificationTimerExpiry 3 false)
      (timed 1150 (withL3 { raw := true, debounce := 50, qualifying := some 50, level := false }))
    t.lines.lines[3].level = true ∧ t.lines.lines[3].qualifying = none
      ∧ t.lines.latest = some { time := 1150, word := 0x0008, changed := 0x0008 } := by
  decide +kernel

/-- Table 1-4 at 2230: L3 qualifies and L5 changes at the same moment; one event of both. -/
theorem test_changes_at_one_moment_are_one_event :
    let s := timed 2230 (withL3 { raw := true, debounce := 100, qualifying := some 100,
                                  level := false })
    (after (.rawLevelChange 5 true true) (after (.qualificationTimerExpiry 3 false) s)).lines.latest
      = some { time := 2230, word := 0x0028, changed := 0x0028 } := by
  decide +kernel

/-! ### The watch (Tables 2-2, 2-6, 2-7) -/

/-- Table 2-2: mask 0x0005, levels 0x0004. -/
def example22 (c : Combine) : Pattern := { mask := 5, levels := 4, combine := c, fireMode := .level }

theorem test_table_2_2_any :
    [0x0000, 0x0001, 0x0004, 0x0005, 0x00F1].map (example22 .any).holds
      = [true, false, true, true, false] := by decide +kernel

theorem test_table_2_2_all :
    [0x0000, 0x0001, 0x0004, 0x0005, 0x00F1].map (example22 .all).holds
      = [false, false, true, false, false] := by decide +kernel

/-- Slot 4 in TRUE_WAIT with the line event of 5450 offered. -/
def atRise : State :=
  timed 5450 (running.setSlot 4
    { armSlot armHold (.watching .trueWait) with
      offered := [{ time := 5450, word := 0x0003, changed := 0x0002 }] })

theorem test_rise_enters_hold :
    let x := (after (.lineEventTaken 4) atRise).slot 4
    x.state = .watching .hold ∧ x.onset = some 5450 ∧ x.holdTimer = some 0 := by decide +kernel

/-- Slot 4 in HOLD with the line event of 5600 offered. -/
def atFall : State :=
  timed 5600 (running.setSlot 4
    { armSlot armHold (.watching .hold) with
      onset := some 5450, holdTimer := some 150,
      offered := [{ time := 5600, word := 0x0002, changed := 0x0001 }] })

theorem test_fall_breaks_hold :
    let x := (after (.lineEventTaken 4) atFall).slot 4
    x.state = .watching .trueWait ∧ x.onset = none ∧ x.holdTimer = none := by decide +kernel

/-- Slot 4 at the end of its second hold, at 5810. -/
def atHoldExpiry : State :=
  timed 5810 ((withWord 0x0013 running).setSlot 4
    { armSlot armHold (.watching .hold) with onset := some 5610, holdTimer := some 200 })

theorem test_hold_expiry_fires_at_5810 :
    ((after (.holdExpiry 4) atHoldExpiry).slot 4).pendingFired
      = some { tag := 0x0010, orderNumber := 1, fireNumber := 1, firingIndex := 0,
               cause := .pattern, onset := 5610, fireTime := 5810, snapshot := 0x0013 } := by
  decide +kernel

theorem test_hold_expiry_makes_first_scan_due :
    (after (.holdExpiry 4) atHoldExpiry).sched.due
      = [{ slot := 4, priority := 1, due := 5810, firingIndex := 0 }] := by decide +kernel

/-- Slot 9 at 23000 with both expiries due. -/
def atBothExpiries (fire : Bool) : State :=
  timed 23000 ((withWord 0x0100 running).setSlot 9
    { armSlot { armTimeout with fireOnTimeout := fire } (.watching .hold) with
      onset := some 22000, holdTimer := some 1000, armTimer := some 3000 })

theorem test_arm_expiry_first_has_onset_23000 :
    ((after (.armExpiry 9) (atBothExpiries true)).slot 9).pendingFired.map
        (fun r => (r.cause, r.onset, r.fireTime)) = some (.timeout, 23000, 23000) := by decide +kernel

theorem test_arm_expiry_ends_timed_out :
    let x := (after (.armExpiry 9) (atBothExpiries false)).slot 9
    x.state = .closing ∧ x.endReason = some .timedOut ∧ x.endTime = some 23000 := by decide +kernel

theorem test_hold_expiry_first_has_onset_22000 :
    ((after (.holdExpiry 9) (atBothExpiries true)).slot 9).pendingFired.map
        (fun r => (r.cause, r.onset, r.fireTime)) = some (.pattern, 22000, 23000) := by decide +kernel

/-- A SAMPLE at the end of its start delay. -/
def atDelayExpiry : State :=
  timed 700 (running.setSlot 0
    { Slot.holding (orderOf (.sample 300)) .delaying with delayTimer := some 300 })

theorem test_delay_expiry_fires_with_cause_start :
    ((after (.delayExpiry 0) atDelayExpiry).slot 0).pendingFired.map
        (fun r => (r.cause, r.onset, r.fireTime)) = some (.start, 700, 700) := by decide +kernel

/-! ### Gates (Tables 10-1 and 3-5) -/

/-- Order 2 of section 10.6. -/
def armGated : ArmOrder :=
  { pattern := { mask := 0x0080, levels := 0x0080, combine := .any, fireMode := .level },
    holdTime := 0, armTimeout := 5, fireOnTimeout := false, gateTag := some 0x0010 }

/-- Slot 1 GATED on slot 0, with an event of its gate waiting. -/
def gated (e : GateEvent) : State :=
  (running.setSlot 0 (armSlot armHold (.watching .trueWait))).setSlot 1
    { Slot.holding { orderOf (.arm armGated) with tag := 0x0020, number := 2 } .gated with
      gateTarget := some 0, armTimer := some 2095, gateEvents := [e] }

theorem test_gate_opening_enters_true_wait :
    let x := (after (.gateOpening 1) (timed 3100 (withWord 0x0004 (gated (.opening 3100))))).slot 1
    x.state = .watching .trueWait ∧ x.gateTarget = none ∧ x.armTimer = some 2095 := by decide +kernel

theorem test_gate_loss_ends_at_12000 :
    let x := (after (.gateLoss 1) (timed 12000 (gated (.loss 12000)))).slot 1
    x.state = .closing ∧ x.endReason = some .gateLost ∧ x.endTime = some 12000
      ∧ x.armTimer = none := by decide +kernel

/-- Table 10-1 at 3100: the fire of slot 0 opens slot 1. -/
theorem test_fire_opens_follower :
    let s := timed 3100 ((gated (.opening 0)).setSlot 0
      { armSlot { armHold with holdTime := 100 } (.watching .hold) with
        onset := some 3000, holdTimer := some 100 })
    ((after (.holdExpiry 0) s).slot 1).gateEvents = [.opening 0, .opening 3100] := by decide +kernel

/-! ### Firings and endings (Tables 2-9, 10-2, 4-6) -/

/-- Slot 2 at 900: its firing of index 0 has handed on everything. -/
def atCompletion : State :=
  timed 900 ((withWord 0x0040 running).setSlot 2
    { armSlot armEntry .running with
      order := { orderOf (.arm armEntry) with rearm := 2 }, resolved := 2, handOn := .pageDone })

theorem test_firing_completion_returns_to_clear_wait :
    let x := (after (.firingCompletion 2) atCompletion).slot 2
    x.state = .watching .clearWait ∧ x.firings = 1 := by decide +kernel

/-- Slot 2 at 3100: the order has ended OK and its last page is done. -/
theorem test_last_firing_completes_in_closing :
    let s := running.setSlot 2
      { armSlot armEntry .closing with endReason := some .ok, firings := 2, handOn := .pageDone }
    let x := (after (.firingCompletion 2) s).slot 2
    x.state = .closing ∧ x.firings = 3 ∧ x.handOn = .completed := by decide +kernel

theorem test_fired_record_enters_post_queue :
    let s := after (.holdExpiry 4) atHoldExpiry
    let t := after (.firedRecordTaken 4) s
    (t.slot 4).pendingFired = none
      ∧ (s.slot 4).pendingFired.map CompletionRecord.fired = t.post.queue.head? := by decide +kernel

/-- Slot 0 of section 10.6 at 3612, with everything handed on. -/
def atOrderEnd : State :=
  running.setSlot 0
    { armSlot armHold .closing with
      endReason := some .ok, endTime := some 3612, firings := 1, stored := 2, pagesPosted := 1,
      pageSequence := 1, handOn := .completed }

/-- Table 10-2, entry 2. -/
theorem test_order_done_record_of_order_1 :
    let t := after (.orderDoneTaken 0) atOrderEnd
    t.post.queue = [.orderDone { status := .ok, tag := 0x0010, orderNumber := 1, detail := 0,
                                 firings := 1, pages := 1, ended := 3612, stored := 2, missed := 0,
                                 dropped := 0 }]
      ∧ (t.slot 0).state = .free := by decide +kernel

/-- A follower that has not yet taken the loss holds the record back (R57). -/
theorem test_order_done_waits_for_follower :
    let s := (gated (.loss 3612)).setSlot 0
      { armSlot armHold .closing with
        endReason := some .ok, endTime := some 3612, firings := 1, handOn := .completed }
    (after (.orderDoneTaken 0) s).post.queue = [] := by decide +kernel

/-- Slot 8 of Table 4-6 with `n` scans due before, at the expiry of its interval timer. -/
def atGridPoint (n missed : Nat) : State :=
  { timed (1000 + 50 * n) (running.setSlot 8
      { armSlot armHold .running with
        order := { orderOf (.arm armHold) with scanCount := 3, interval := 50, priority := 2 }
        dueCount := n, resolved := missed, missedRun := missed, intervalTimer := some 50
        nextDue := some (950 + 50 * n) }) with
    sched.due := [{ slot := 8, priority := 2, due := 1000, firingIndex := 0 }] }

theorem test_grid_point_1050_is_missed :
    let x := (after (.intervalTimerExpiry 8) (atGridPoint 1 0)).slot 8
    x.missed = 1 ∧ x.missedRun = 1 ∧ x.intervalTimer = some 0 ∧ x.nextDue = some 1050 := by
  decide +kernel

theorem test_grid_point_1100_exhausts_grid :
    let x := (after (.intervalTimerExpiry 8) (atGridPoint 2 1)).slot 8
    x.missedRun = 2 ∧ x.dueCount = 3 ∧ x.intervalTimer = none := by decide +kernel

/-! ### The converter (Tables 4-3, 4-4, 4-6) -/

/-- The three entries of Table 4-4. -/
def entries44 : List ScanEntry :=
  [{ channel := 0, averaging := 1 }, { channel := 3, averaging := 8 }, { channel := 7, averaging := 2 }]

/-- A waiting scan of slot 5 with the entries of Table 4-4, at 40000. -/
def atGrant : State :=
  { timed 40000 ((withWord 0x0028 running).setSlot 5
      { armSlot armHold .running with
        order := { orderOf (.arm armHold) with entries := entries44 }, dueCount := 1 }) with
    sched.due := [{ slot := 5, priority := 1, due := 39990, firingIndex := 0 },
                  { slot := 8, priority := 2, due := 39000, firingIndex := 0 }] }

theorem test_grant_starts_scan_at_40000 :
    let t := after .grant atGrant
    t.sched.conversion.map (fun c => (c.slot, c.timestamp, c.snapshot, c.entries))
        = some (5, 40000, 0x0028, entries44)
      ∧ t.sched.due.map DueEntry.slot = [8] ∧ (t.slot 5).inConversion = true := by decide +kernel

/-- The scan of slot 5 with the given progress. -/
def converting (c : Conversion) : State := { atGrant with sched.conversion := some c, sched.due := [] }

/-- The scan that starts in `atGrant`, before any value. -/
def scan44 : Conversion :=
  { slot := 5, firingIndex := 0, timestamp := 40000, snapshot := 0x0028, entries := entries44,
    values := [], sum := 0, made := 0, phase := .settling 10 }

theorem test_settled_entry_converts :
    (after .entrySettled (converting scan44)).sched.conversion.map Conversion.phase
      = some (.converting 0) := by decide +kernel

/-- The settle time of A0 is 10 microseconds: 9 do not do. -/
theorem test_unsettled_entry_waits :
    after .entrySettled (converting { scan44 with phase := .settling 9 })
      = converting { scan44 with phase := .settling 9 } := by decide +kernel

/-- Table 4-3: the codes 8200, 8201, 8201 and 8203 (here 13427735 nV) give the value 8201; the scan
of that one entry ends. -/
theorem test_average_of_four :
    let c : Conversion := { scan44 with entries := [{ channel := 0, averaging := 4 }],
                                        sum := 24602, made := 3, phase := .converting 2 }
    let t := after (.conversionDone 13427735) (converting c)
    t.sched.staging.map ScanResult.values = [[8201]] ∧ t.sched.conversion = none := by decide +kernel

/-- Table 4-6 at 1141: the scan end carries the missed run of 2 away from the slot. -/
theorem test_scan_end_takes_missed_run :
    let c : Conversion := { scan44 with entries := [{ channel := 0, averaging := 1 }],
                                        phase := .converting 2 }
    let s := converting c
    let t := after (.conversionDone 0) (s.setSlot 5 { s.slot 5 with missedRun := 2 })
    t.sched.staging.map ScanResult.missedBefore = [2] ∧ (t.slot 5).missedRun = 0
      ∧ (t.slot 5).inStaging = 1 := by decide +kernel

theorem test_codes_at_the_ends :
    conversionCode (-10000000000) = 0 ∧ conversionCode (-10000000001) = 0
      ∧ conversionCode 0 = 8192 ∧ conversionCode 9998779296 = 16382
      ∧ conversionCode 9998779297 = 16383 ∧ conversionCode 10000000000 = 16383 := by decide +kernel

/-! ### Pages and the pool (Tables 5-4, 5-7, 9-11) -/

/-- A pool read in flight with tag 7 for entry 15, the last of the ring. -/
def poolReading : State :=
  { timed 8000 running with
    pages.poolHead := 15, pages.dry := true,
    pages.poolRead := some { tag := 7, address := 0x20F0, elapsed := 2, refused := false } }

theorem test_pool_read_is_issued_at_head :
    let s := { running with pages.poolHead := 15, window.poolTail := 3 }
    (after .poolReadIssue s).pages.poolRead
      = some { tag := 0, address := 0x20F0, elapsed := 0, refused := false } := by decide +kernel

theorem test_good_descriptor_joins_cache :
    let t := after (.poolReadData 7 (BitVec.ofNat 128
      (bytesOf [0x40, 0, 1, 0, 0, 0, 0, 0, 2, 2, 0, 0, 0xFF, 0xFF, 0xFF, 0xFF]))) poolReading
    t.pages.cache = [{ address := 0x10040, ident := 0x202 }] ∧ t.pages.poolHead = 0
      ∧ t.pages.dry = false := by decide +kernel

/-- Table 7-3 at 8000. -/
theorem test_bad_descriptor_is_latched :
    let t := after (.poolReadData 7 (BitVec.ofNat 128
      (bytesOf [0x41, 0, 1, 0, 0, 0, 0, 0, 1, 3, 0, 0, 0, 0, 0, 0]))) poolReading
    t.pages.cache = [] ∧ t.post.badNotice
      = some { code := .poolBad, count := 1, ident := 0x301, time := 8000 } := by decide +kernel

/-- A result of a slot in the firing of index 0. -/
def resultOf (i : Fin 32) (missedBefore : Nat) (values : List (BitVec 14)) : ScanResult :=
  { slot := i, firingIndex := 0, timestamp := 500, snapshot := 0, missedBefore := missedBefore,
    values := values, work := .fresh 900 }

/-- A slot RUNNING a continuous order, with one result in staging. -/
def staged (i : Fin 32) (x : Slot) (r : ScanResult) (cache : List Descriptor) : State :=
  { timed 1000 (running.setSlot i { x with inStaging := 1 }) with
    sched.staging := [r], pages.cache := cache }

/-- A RUNNING slot of a continuous order. -/
def continuous : Slot :=
  { armSlot armHold .running with
    order := { orderOf (.arm armHold) with tag := 0x0044, scanCount := 0 } }

/-- Table 5-4, steps 1 and 2: the first result opens the page, the second is dropped. -/
theorem test_result_opens_page :
    let t := after .resultTaken (staged 1 continuous (resultOf 1 0 [5]) [{ address := 0x40000, ident := 0x201 }])
    (t.slot 1).openPage.map (fun p => (p.descriptor.ident, p.scans, p.fill)) = some (0x201, 1, 32)
      ∧ t.pages.cache = [] ∧ (t.slot 1).stored = 1 := by decide +kernel

theorem test_result_is_dropped :
    let t := after .resultTaken (staged 6 continuous (resultOf 6 1 [5]) [])
    (t.slot 6).carriedMisses = 1 ∧ (t.slot 6).dropped = 1 ∧ t.pages.dry = true
      ∧ t.post.dryNotice.map NoticeRecord.count = some 1 := by decide +kernel

/-- The open page of slot 3 in Table 5-7. -/
def page3 (fill scans : Nat) : OpenPage :=
  { descriptor := { address := 0x40000, ident := 0x101 }, fill := fill, scans := scans, first := 77,
    age := none, expired := none }

/-- Slot 3 of Table 5-7 with a result of three values to place. -/
def atPageEnd (fill scans : Nat) : State :=
  staged 3 { continuous with openPage := some (page3 fill scans) } (resultOf 3 0 [8201, 16383, 0])
    [{ address := 0x50000, ident := 0x102 }]

theorem test_record_is_stored_at_996 :
    let t := after .resultTaken (atPageEnd 996 49)
    (t.slot 3).openPage.map (fun p => (p.fill, p.scans)) = some (1016, 50)
      ∧ t.sched.staging = [] := by decide +kernel

theorem test_full_page_closes :
    let t := after .resultTaken (atPageEnd 1016 50)
    (t.slot 3).openPage = none ∧ t.sched.staging.length = 1
      ∧ (t.slot 3).closingPage.map (fun c => (c.page.fill, c.flags)) = some (1016, PageFlags.none) := by
  decide +kernel

/-- Table 5-7: the PAGE record of the full page, after its header. -/
theorem test_page_record_of_full_page :
    let t := after (.pageClose 3) (after .resultTaken (atPageEnd 1016 50))
    t.post.queue = [.page { tag := 0x0044, orderNumber := 1, ident := 0x101, bytesUsed := 1016,
                            sequence := 0, scans := 50, flags := PageFlags.none }]
      ∧ t.link.issued = [.memory 0x40000
          [0x44, 0, 0, 0, 50, 0, 0, 0, 77, 0, 0, 0, 0, 0, 0, 0]]
      ∧ (t.slot 3).pageSequence = 1 ∧ (t.slot 3).pagesPosted = 1 := by decide +kernel

/-- Table 9-11. -/
theorem test_scan_record_bytes :
    scanRecordBytes 123456 0x0028 2 1 [8201, 16383, 0]
      = [0x40, 0xE2, 0x01, 0, 0, 0, 0x28, 0, 2, 0, 1, 3, 0x09, 0x20, 0xFF, 0x3F, 0, 0]
      ∧ scanRecordSize 3 = 20 := by decide +kernel

/-- The record of Table 7-3 at 8008. -/
def badNotice : NoticeRecord := { code := .poolBad, count := 3, ident := 0x303, time := 8000 }

/-- Slot 3 at the end of its order, with an open page. -/
def atCloseRequest (open_ : Bool) : State :=
  running.setSlot 3
    { continuous with
      state := .closing, endReason := some .halted, endTime := some 90000
      openPage := if open_ then some (page3 36 1) else none }

theorem test_close_request_names_end_of_order :
    ((after (.pageCloseRequest 3) (atCloseRequest true)).slot 3).closingPage.map ClosingPage.flags
      = some { endOfFiring := false, endOfOrder := true, flushed := false, unused := false } := by
  decide +kernel

theorem test_close_request_without_page_is_met :
    ((after (.pageCloseRequest 3) (atCloseRequest false)).slot 3).handOn = .pageDone := by
  decide +kernel

/-- The age timer of slot 3's page has expired. -/
def atFlush : State :=
  running.setSlot 3 { continuous with openPage := some { page3 36 1 with expired := some (.fresh 0) } }

theorem test_flush_closes_page :
    ((after (.flushExpiry 3) atFlush).slot 3).closingPage.map ClosingPage.flags
      = some { endOfFiring := false, endOfOrder := false, flushed := true, unused := false } := by
  decide +kernel

/-- Table 5-7 with slot 3's page full, the page of slot 5 expired at 950, and `n` records in the Post
Queue. -/
def atStall (n : Nat) : State :=
  { (atPageEnd 1016 50).setSlot 5 { continuous with
      openPage := some { page3 36 1 with expired := some (.fresh 950) } } with
    post.queue := List.replicate n (.notice badNotice) }

/-- R105: while the close of the full page waits, no result is taken and no expiry. -/
theorem test_stalled_page_writer_takes_nothing :
    let s := after .resultTaken (atStall 24)
    s.pages.closeWaits = true ∧ after .resultTaken s = s ∧ after (.flushExpiry 5) s = s
      ∧ after (.pageClose 3) s = s := by decide +kernel

/-- R105: a close that waited and is taken within one microsecond is a stall; the result of 900 is then
taken before the expiry of 950. -/
theorem test_stall_of_no_length_orders_the_work :
    let s := after (.pageClose 3) (after .recordWrite (after .resultTaken (atStall 24)))
    (s.slot 3).closingPage = none ∧ after (.flushExpiry 5) s = s
      ∧ ((after (.flushExpiry 5) (after .resultTaken s)).slot 5).closingPage.isSome = true := by
  decide +kernel

/-- A close that did not wait ends no stall, and orders nothing. -/
theorem test_close_without_wait_orders_nothing :
    let s := after (.pageClose 3) (after .resultTaken (atStall 0))
    ((after (.flushExpiry 5) s).slot 5).closingPage.isSome = true := by decide +kernel

/-- Work that arises after the end of a stall does not bar what is there (R105). -/
theorem test_work_after_the_stall_bars_nothing :
    let s := after (.pageClose 3) (after .recordWrite (after .resultTaken (atStall 24)))
    let t := { s with sched.staging := [resultOf 3 0 [1]] }
    ((after (.flushExpiry 5) t).slot 5).closingPage.isSome = true := by decide +kernel

/-- A stop with everything drained but the cache. -/
def atUnused : State :=
  { inState .stopping running with pages.cache := [{ address := 0x40, ident := 0x103 }] }

theorem test_unused_page_is_returned :
    let t := after .unusedReturn atUnused
    t.pages.cache = [] ∧ t.post.queue.map (fun r => r.bytes true 2)
      = [[0x83, 0, 0, 0, 0, 0, 0, 0, 2, 0, 0, 0, 8, 0, 0, 0, 0, 0, 0, 0, 3, 1, 0, 0,
          0, 0, 0, 0, 0, 0, 0, 0]] := by decide +kernel

/-! ### Completions (Tables 7-3, 7-6, 10-2) -/

theorem test_notice_is_taken_with_count_3 :
    let t := after .noticeTaken { running with post.badNotice := some badNotice }
    t.post.queue = [.notice badNotice] ∧ t.post.badNotice = none := by decide +kernel

/-- The ring of Table 7-6 before record B. -/
def atWrap : State :=
  { running with
    post := { tail := 15, lap := true, queue := [.notice badNotice], dryNotice := none,
              badNotice := none, gathered := 1, timer := some 10 }
    window.doneHead := 10, events.mask := 1, link.msi := true }

theorem test_tail_wraps_and_lap_inverts :
    let t := after .recordWrite atWrap
    t.post.tail = 0 ∧ t.post.lap = false ∧ t.unreleased = 6 ∧ t.post.gathered = 2
      ∧ t.post.timer = some 10 := by decide +kernel

/-- Record C: the counter reaches 3 and DONE_READY is signalled with the message. -/
theorem test_third_record_signals :
    let t := after .recordWrite
      { atWrap with post.tail := 0, post.lap := false, post.gathered := 2,
                    post.queue := [.fired (State.reset.fireRecord 0 .start 0 0)] }
    t.post.gathered = 0 ∧ t.post.timer = none ∧ t.events.flags = 1
      ∧ t.link.issued.getLast? = some .msi := by decide +kernel

theorem test_moderation_expiry_signals :
    let t := after .moderationTimerExpiry
      { atWrap with post.gathered := 1, post.timer := some 200 }
    t.post.gathered = 0 ∧ t.post.timer = none ∧ t.events.flags = 1
      ∧ t.link.issued = [.msi] := by decide +kernel

/-- The FIRED record of Table 10-2, entry 0. -/
def fired1 : FiredRecord :=
  { tag := 0x0010, orderNumber := 1, fireNumber := 1, firingIndex := 0, cause := .pattern,
    onset := 3000, fireTime := 3100, snapshot := 0x0004 }

/-- Its bytes by Tables 9-6 to 9-8. -/
theorem test_fired_record_bytes :
    (CompletionRecord.fired fired1).bytes true 2
      = [0x82, 0, 0x10, 0, 1, 0, 0, 0, 2, 0, 0, 1, 4, 0, 0xB8, 0x0B, 0, 0, 0, 0,
         0x1C, 0x0C, 0, 0, 0, 0, 1, 0, 0, 0, 0, 0] := by decide +kernel

/-- The ORDER_DONE record of Table 10-2, entry 2, by Tables 9-6 to 9-8. -/
theorem test_order_done_bytes :
    ((atOrderEnd.slot 0).orderDone |> CompletionRecord.orderDone).bytes true 2
      = [0x81, 0, 0x10, 0, 1, 0, 0, 0, 2, 0, 1, 0, 1, 0, 0x1C, 0x0E, 0, 0, 0, 0, 2, 0, 0, 0,
         0, 0, 0, 0, 0, 0, 0, 0] := by decide +kernel

/-- Byte 1 by Tables 6-11 and 9-6: BAD_ORDER (6) with detail code 8, and the other status codes. -/
theorem test_status_bytes :
    ((fetchRecord 7 9 .badOrder 8 0).bytes false 0)[1]? = some 0x86
      ∧ [Status.ok, .cancelled, .halted, .timedOut, .gateLost, .tagBusy, .badOrder, .noTarget].map
          (fun st => ((fetchRecord 7 9 st 0 0).bytes false 0)[1]?)
        = [some 0, some 1, some 2, some 3, some 4, some 5, some 6, some 7] := by decide +kernel

/-- The POOL_BAD record of Table 7-3: status, tag and order number 0 (Table 7-4). -/
theorem test_notice_bytes :
    (CompletionRecord.notice badNotice).bytes true 2
      = [0x84, 0, 0, 0, 0, 0, 0, 0, 2, 0, 2, 0, 3, 0, 0x40, 0x1F, 0, 0, 0, 0, 3, 3, 0, 0,
         0, 0, 0, 0, 0, 0, 0, 0] := by decide +kernel

/-! ### Orders (Tables 9-3 to 9-5, 6-3, 6-6, 10-1, 10-5, 1-4) -/

/-- The 64 bytes of an order; what the list does not give is 0. -/
def image (l : List Nat) : OrderImage := BitVec.ofNat 512 (bytesOf l)

/-- Order 1 of section 10.6, byte by byte from Table 9-3, with its unused bytes set. -/
def order1 : OrderImage :=
  image [1, 1, 0x10, 0, 1, 0xFF, 0xFF, 0xFF, 4, 0, 4, 0, 0xFC, 0, 100, 0, 0, 0, 0xAA, 0xAA, 2, 0, 1,
         0xFF, 0xF4, 1, 0, 0xFF, 9, 9, 9, 0xFF, 0, 1, 12, 3]

/-- Order 2 of section 10.6. -/
def order2 : OrderImage :=
  image [1, 4, 0x20, 0, 1, 0, 0, 0, 0x80, 0, 0x80, 0, 0, 0, 0, 0, 5, 0, 0x10, 0, 1, 0, 1, 0, 0, 0, 0,
         0, 0, 0, 0, 0, 1, 1]

/-- A SAMPLE with tag 0x0102 and the given start delay. -/
def sampleOrder (delay : Nat) : OrderImage :=
  image [2, 0, 2, 1, 0, 0, 0, 0, 0, 0, 0, 0, 0, 0, 0, 0, 0, 0, 0, 0, 1, 0, 1, 0, 0, 0, 0, 0, delay, 0, 0,
         0, 11, 8]

/-- The CANCEL of section 10.8, with the target tag given. -/
def cancelOrder (target : Nat) : OrderImage := image [3, 0, 1, 0x0F, 0xFF, 0, 0, 0, target, 0]

/-- The LINES order of Table 1-4. -/
def linesOrder : OrderImage := image [4, 0, 0, 2, 0, 0, 0, 0, 8, 0, 100]

/-- The FENCE of Table 6-6. -/
def fenceOrder : OrderImage := image [5, 0, 0xFE, 0x0F, 0, 0, 0, 0, 20, 0]

theorem test_order_1_decodes :
    order1.copy 1 =
      { tag := 0x0010, number := 1
        kind := .arm { pattern := { mask := 4, levels := 4, combine := .any, fireMode := .level }
                       holdTime := 100, armTimeout := 0, fireOnTimeout := false, gateTag := none }
        priority := 1, notifyFire := true, rearm := 0, scanCount := 2, interval := 500
        entries := [{ channel := 0, averaging := 1 }] } := by decide +kernel

theorem test_valid_orders :
    [order1, order2, sampleOrder 9, cancelOrder 0x60, linesOrder, fenceOrder].map
      (validate copy0.channels) = [0, 0, 0, 0, 0, 0] := by decide +kernel

/-- R113: an entry naming channel 12 fails before an averaging count of 3; and a SAMPLE that is
continuous with a rearm count fails with CONTINUOUS_REARM; an entry of zeros has unknown kind. -/
theorem test_first_failed_check :
    validate copy0.channels (image [1, 0, 0, 0, 0, 0, 0, 0, 1, 0, 0, 0, 0, 0, 0, 0, 0, 0, 0, 0, 1, 0, 2,
        0, 0, 0, 0, 0, 0, 0, 0, 0, 0, 3, 12, 1]) = 6
      ∧ validate copy0.channels (image [2, 0, 0, 0, 0, 0, 0, 0, 0, 0, 0, 0, 0, 2, 0, 0, 0, 0, 0, 0, 0, 0,
        1, 0, 0, 0, 0, 0, 0, 0, 0, 0, 0, 1]) = 9
      ∧ validate copy0.channels 0 = 1 := by decide +kernel

/-- RUNNING with an order held at the head. -/
def holding (o : OrderImage) : State :=
  { running with
    fetch.state := .holding
    fetch.held := some { image := o, detail := validate copy0.channels o }
    window.orderTail := 3 }

theorem test_order_read_is_issued :
    let t := after .orderReadIssue { running with fetch.head := 15, window.orderTail := 3 }
    t.fetch.read.map OrderRead.read
        = some { tag := 0, address := 0x13C0, elapsed := 0, refused := false }
      ∧ t.fetch.state = .reading := by decide +kernel

/-- An order read in flight with tag 5. -/
def reading : State :=
  { running with
    fetch.state := .reading
    fetch.read := some { read := { tag := 5, address := 0x1000, elapsed := 3, refused := false },
                         withdrawn := false }
    window.orderTail := 3 }

theorem test_order_data_is_held :
    (after (.orderReadData 5 order1) reading).fetch.held
      = some { image := order1, detail := 0 } := by decide +kernel

/-- Table 10-1 at 1000 and 1005. -/
theorem test_arm_is_admitted_to_true_wait :
    let t := after .arm (timed 1000 (holding order1))
    (t.slot 0).state = .watching .trueWait ∧ (t.slot 0).order.number = 1 ∧ t.fetch.head = 1
      ∧ t.fetch.state = .idle := by decide +kernel

theorem test_gated_arm_links_to_its_target :
    let s := (timed 1005 (holding order2)).setSlot 0 (armSlot armHold (.watching .trueWait))
    let x := (after .arm { s with run.orderNumber := 1 }).slot 1
    x.state = .gated ∧ x.gateTarget = some 0 ∧ x.armTimer = some 0 ∧ x.order.number = 2 := by
  decide +kernel

theorem test_sample_enters_delaying :
    let x := (after .sample (holding (sampleOrder 9))).slot 0
    x.state = .delaying ∧ x.delayTimer = some 0 := by decide +kernel

theorem test_sample_without_delay_fires :
    let t := after .sample (holding (sampleOrder 0))
    (t.slot 0).state = .running ∧ t.sched.due.map DueEntry.slot = [0] := by decide +kernel

/-- Section 10.8 with the CANCEL taken first. -/
def atCancel (state : SlotState) : State :=
  timed 20052 ({ holding (cancelOrder 0x60) with run.orderNumber := 14 }.setSlot 6
    { armSlot armHold state with
      order := { orderOf (.arm armHold) with tag := 0x0060, number := 12 } })

theorem test_cancel_ends_its_target :
    let t := after .cancel (atCancel .running)
    (t.slot 6).endReason = some .cancelled ∧ (t.slot 6).endTime = some 20052
      ∧ t.post.queue = [fetchRecord 0x0F01 15 .ok 0 20052] := by decide +kernel

theorem test_cancel_of_closing_order_finds_no_target :
    (after .cancel (atCancel .closing)).post.queue = [fetchRecord 0x0F01 15 .noTarget 0 20052] := by
  decide +kernel

/-- The target of `atCancel` at the end of its first firing of three, with the records it still has to
hand on. -/
def lastRecord (fired : Option FiredRecord) (closing : Option ClosingPage) : State :=
  (atCancel .running).setSlot 6
    { (atCancel .running).slot 6 with
      order := { orderOf (.arm armHold) with tag := 0x0060, number := 12, rearm := 2 }
      dueCount := 2, becameDue := 2, resolved := 2, stored := 2
      pendingFired := fired, closingPage := closing }

/-- The close of the firing's page, asked for by the slot. -/
def endOfFiring : ClosingPage :=
  { page := page3 56 2, flags := { PageFlags.none with endOfFiring := true }, requested := true }

/-- R61: with the PAGE record accepted first the firing is counted, with the CANCEL first it is not. -/
theorem test_page_record_against_cancel :
    let s := lastRecord none (some endOfFiring)
    let t := after .cancel (after (.pageClose 6) s)
    let u := after (.pageClose 6) (after .cancel s)
    ((t.slot 6).endReason = some .cancelled ∧ (t.slot 6).firings = 1)
      ∧ ((u.slot 6).endReason = some .cancelled ∧ (u.slot 6).firings = 0) := by decide +kernel

/-- R61: the same with the FIRED record of a firing without a page. -/
theorem test_fired_record_against_cancel :
    let s := lastRecord (some fired1) none
    let t := after .cancel (after (.firedRecordTaken 6) s)
    let u := after (.firedRecordTaken 6) (after .cancel s)
    ((t.slot 6).endReason = some .cancelled ∧ (t.slot 6).firings = 1)
      ∧ ((u.slot 6).endReason = some .cancelled ∧ (u.slot 6).firings = 0) := by decide +kernel

/-- R61: the same against the halt. -/
theorem test_page_record_against_halt :
    let s := lastRecord none (some endOfFiring)
    let t := after (.runWritten0 0) (after (.pageClose 6) s)
    let u := after (.pageClose 6) (after (.runWritten0 0) s)
    ((t.slot 6).endReason = some .halted ∧ (t.slot 6).firings = 1)
      ∧ ((u.slot 6).endReason = some .halted ∧ (u.slot 6).firings = 0) := by decide +kernel

/-- R61: the last scan's end first, and the firing is not counted. -/
theorem test_last_scan_against_cancel :
    let t := after .cancel (lastRecord none none)
    (t.slot 6).endReason = some .cancelled ∧ (t.slot 6).firings = 0 := by decide +kernel

/-- Table 1-4 at 2130. -/
theorem test_lines_restarts_qualification :
    let s := (timed 2130 (holding linesOrder)).setLine 3
      { raw := true, debounce := 50, qualifying := some 30, level := false }
    (after .lines s).lines.lines[3]
      = { raw := true, debounce := 100, qualifying := some 0, level := false } := by decide +kernel

/-- Table 6-6 at 103 and at 5902. -/
theorem test_fence_waits_for_slot_0 :
    let s := (holding fenceOrder).setSlot 0 (armSlot armHold (.watching .trueWait))
    let t := after .fence s
    t.fetch.state = .fenced ∧ t.fetch.fence.map (fun f => (f.timer, f.outcome)) = some (some 0, none) := by
  decide +kernel

/-- The fence of Table 6-6 as order 2. -/
def fence2 : Fence :=
  { tag := 0x0FFE, orderNumber := 2, limit := 20, timer := some 20000, outcome := none }

/-- FENCED on slot 0. -/
def fenced (f : Fence) : State :=
  { timed 5902 (running.setSlot 0 (armSlot armHold .closing)) with
    fetch.state := .fenced, fetch.fence := some f }

theorem test_fence_limit_expires :
    (after .fenceLimitExpiry (fenced fence2)).fetch.fence.map Fence.outcome
      = some (some (.timedOut, 5902)) := by decide +kernel

theorem test_fence_record_resumes_fetching :
    let t := after .fenceDoneTaken
      (fenced { fence2 with timer := none, outcome := some (.ok, 5902) })
    t.fetch.state = .idle ∧ t.fetch.fence = none
      ∧ t.post.queue = [fetchRecord 0x0FFE 2 .ok 0 5902] := by decide +kernel

/-- The last slot's end gives the fence the outcome OK (Table 6-6). -/
theorem test_last_free_slot_settles_fence :
    (after (.orderDoneTaken 0) { atOrderEnd with fetch.fence := some fence2 }).fetch.fence.map
        Fence.outcome = some (some (.ok, 0)) := by decide +kernel

/-- R160's note: an entry cleared to zeros is answered BAD_ORDER with detail code 1 and tag 0. -/
theorem test_cleared_entry_is_a_bad_order :
    (after .badOrder (holding 0)).post.queue = [fetchRecord 0 1 .badOrder 1 0] := by decide +kernel

/-! ### Run control and the register window (chapter 8) -/

/-- A Setup Record by Table 9-1: bases 0x1000, 0x2000, 0x3000, rings of 16, moderation count 3, pages
of 1024 bytes, flush interval 0, moderation delay 200, all channels on with 10 microseconds, and
debounce times 0 but 50 for L3. -/
def setupBytes : List Nat :=
  [0, 0x10, 0, 0, 0, 0, 0, 0] ++ [0, 0x20, 0, 0, 0, 0, 0, 0] ++ [0, 0x30, 0, 0, 0, 0, 0, 0]
    ++ [16, 0, 16, 0, 16, 0, 3, 0xFF, 0, 4, 0, 0, 0, 0, 200, 0]
    ++ (List.replicate 12 [1, 10]).flatten ++ [0, 0, 0, 50]

/-- STARTING with the setup read in flight under tag 0. -/
def starting : State :=
  { inState .starting State.reset with
    link.busMaster := true, link.nextTag := 1, window.run := true
    run.setupRead := some { tag := 0, address := 0x8000, elapsed := 0, refused := false } }

theorem test_setup_record_starts_the_run :
    let t := after (.setupReadData 0 (BitVec.ofNat 1024 (bytesOf setupBytes))) starting
    t.run.runState = .running ∧ t.fetch.state = .idle ∧ t.run.copy = { copy0 with debounce := t.run.copy.debounce }
      ∧ t.lines.lines[3].debounce = 50 ∧ t.readWindow 0x08 .bits32 = 2 := by decide +kernel

/-- A Setup Record of zeros fails check 2. -/
theorem test_zero_setup_record_fails :
    let t := after (.setupReadData 0 0) starting
    t.run.runState = .stopped ∧ t.run.setupResult = .badRingSize ∧ t.window.run = false
      ∧ t.events.flags = 4 := by decide +kernel

theorem test_setup_read_error_ends_start :
    (after (.setupReadError 0) starting).readWindow 0x08 .bits32 = 0x00010000 := by decide +kernel

theorem test_run_1_issues_setup_read :
    let t := after .runWritten1 { State.reset with window.setupLo := 0x8000, window.setupHi := 1,
                                                   link.busMaster := true }
    t.run.runState = .starting ∧ t.run.setupRead
      = some { tag := 0, address := 0x100008000, elapsed := 0, refused := false } := by decide +kernel

theorem test_misaligned_setup_address_ends_start :
    let t := after .runWritten1 { State.reset with window.setupLo := 0x8020 }
    t.run.runState = .stopped ∧ t.run.setupResult = .badAlignment ∧ t.window.run = false := by
  decide +kernel

/-- Section 8.3.1 at 90000: slot 2 with a waiting scan. -/
theorem test_run_0_halts_a_running_slot :
    let s := timed 90000 (running.setSlot 2 { continuous with openPage := some (page3 36 1) })
    let t := after (.runWritten0 0)
      { s with sched.due := [{ slot := 2, priority := 1, due := 1, firingIndex := 0 }] }
    t.run.runState = .stopping ∧ (t.slot 2).endReason = some .halted
      ∧ (t.slot 2).endTime = some 90000 ∧ (t.slot 2).missed = 1 ∧ t.sched.due = [] := by
  decide +kernel

/-- FAULTED since L3 departed. -/
def faulted : State :=
  { inState .faulted (withL3 { raw := true, debounce := 50, qualifying := none, level := false }) with
    post.tail := 5, run.faultCode := .linkDown }

theorem test_run_0_leaves_faulted :
    let t := after (.runWritten0 0) faulted
    t.run.runState = .stopped ∧ t.run.faultCode = .linkDown ∧ t.post.tail = 5
      ∧ t.lines.lines[3].qualifying = some 0 ∧ t.events.flags = 0 := by decide +kernel

theorem test_host_reset_keeps_lines :
    let t := after .hostReset (withWord 0x00FF atWrap)
    t.word = 0x00FF ∧ t.post.tail = 0 ∧ t.post.lap = true ∧ t.run.copy = copy0
      ∧ t.run.runState = .stopped := by decide +kernel

theorem test_power_on_reset_follows_high_inputs :
    let t := after .powerOnReset (withL3 { raw := true, debounce := 50, qualifying := some 3,
                                           level := false })
    t.word = 0x0008 ∧ t.lines.lines[3].debounce = 0 ∧ t.link.busMaster = false := by decide +kernel

theorem test_link_reset_clears_the_copy :
    (after .linkReset running).run.copy = SetupCopy.cleared := by decide +kernel

theorem test_events_write_clears_ones :
    (after (.eventsWrite .bits32 1) { running with events.flags := 0x13 }).events.flags = 0x12 := by
  decide +kernel

theorem test_unmasking_an_active_flag_sends_the_message :
    (after (.eventMaskWrite .bits32 1) { running with events.flags := 1, link.msi := true }).link.issued
      = [.msi] := by decide +kernel

theorem test_order_tail_at_head_withdraws :
    ((after (.orderTailWrite 0) reading).fetch.read.map OrderRead.withdrawn) = some true := by
  decide +kernel

theorem test_pool_tail_of_ring_size_is_refused :
    (after (.poolTailWrite 16) running).events.flags = 0x10
      ∧ (after (.poolTailWrite 15) running).window.poolTail = 15 := by decide +kernel

/-- Section 7.5.1: with the tail at 2 and the head at 10, a DONE_HEAD of 2 releases all eight; 3 would
release a record not yet written. -/
theorem test_done_head_releases_up_to_tail :
    (after (.doneHeadWrite 2) { atWrap with post.tail := 2 }).window.doneHead = 2
      ∧ (after (.doneHeadWrite 3) { atWrap with post.tail := 2 }).window.doneHead = 10
      ∧ (after (.doneHeadWrite 3) { atWrap with post.tail := 2 }).events.flags = 0x10 := by
  decide +kernel

theorem test_read_only_register_refuses_a_write :
    (after (.registerWrite 0x2C .bits32 0) running).events.flags = 0x10
      ∧ (after (.registerWrite 0x14 .bits32 0x40) running).window.setupLo = 0x40 := by decide +kernel

theorem test_line_state_shows_the_word :
    (withWord 0x0028 running).readWindow 0x2C .bits32 = 0x28
      ∧ running.readWindow 0x00 .bits32 = 0x0A160001
      ∧ running.readWindow 0x00 .bits64 = 0 := by decide +kernel

/-- A stop with everything drained and one record not yet signalled. -/
theorem test_stop_completes :
    let t := after .stopComplete { inState .stopping running with post.gathered := 1, post.timer := some 5 }
    t.run.runState = .stopped ∧ t.post.gathered = 0 ∧ t.post.timer = none ∧ t.events.flags = 5 := by
  decide +kernel

theorem test_fetch_error_faults :
    let t := after (.fetchError 5) reading
    t.run.runState = .faulted ∧ t.run.faultCode = .fetchError ∧ t.fetch.state = .off
      ∧ t.events.flags = 8 := by decide +kernel

theorem test_pool_error_faults :
    (after (.poolError 7) poolReading).run.faultCode = .poolError := by decide +kernel

theorem test_completion_timeout_names_the_read :
    (after (.completionTimeout 7) { poolReading with
        pages.poolRead := some { tag := 7, address := 0x20F0, elapsed := 50000, refused := false } }
      ).run.faultCode = .poolError
      ∧ after (.completionTimeout 7) poolReading = poolReading := by decide +kernel

theorem test_write_errors_fault :
    (after .pageError running).run.faultCode = .pageError
      ∧ (after .postError running).run.faultCode = .postError
      ∧ (after .linkDown running).run.faultCode = .linkDown
      ∧ after .linkDown State.reset = State.reset := by decide +kernel

theorem test_configuration_space_write :
    (after (.configurationSpaceWrite false true) running).link.busMaster = false
      ∧ (after (.configurationSpaceWrite false true) running).link.msi = true := by decide +kernel

/-! ### Time -/

/-- The state after a step that completes. -/
def stepped (s : State) : State :=
  match step s with
  | .next t => t
  | .fault _ | .refused _ => s

/-- A microsecond of RUNNING in HOLD. -/
theorem test_microsecond_advances_timers :
    let t := stepped (timed 5700 (running.setSlot 4
      { armSlot armHold (.watching .hold) with onset := some 5610, holdTimer := some 90 }))
    (t.slot 4).holdTimer = some 91 ∧ t.now = 5701 := by decide +kernel

/-- The 48-bit counter wraps to 0 and the moment goes on (R144). -/
theorem test_timestamp_wraps :
    let t := stepped (timed (2 ^ 48 - 1) running)
    t.now = 0 ∧ t.moment = 2 ^ 48 := by decide +kernel

/-- A hold that has expired is taken before time passes (log entry 1). -/
theorem test_due_event_holds_time : stepped atHoldExpiry = atHoldExpiry := by decide +kernel

/-! ### States that meet the hypotheses of the obligations

Each theorem names its obligation and lists, clause by clause, hypotheses that hold together. -/

theorem witness_StepTakesFrontCommand :
    { running with pending := [.grant, .lines] }.pending = .grant :: [.lines] := rfl

/-- STOPPING with slot 2 waiting for its page close, which takes the Page Writer's time. -/
def stopping : State := inState .stopping (atCloseRequest true)

theorem witness_MicrosecondPassesWhenNothingIsDue :
    (atHoldExpiry.pending = [] ∧ atHoldExpiry.Due)
      ∧ (faulted.pending = [] ∧ ¬ faulted.Due ∧ faulted.run.runState = .faulted)
      ∧ (State.reset.pending = [] ∧ ¬ State.reset.Due ∧ State.reset.run.runState = .stopped)
      ∧ (starting.pending = [] ∧ ¬ starting.Due ∧ starting.run.runState = .starting)
      ∧ (running.pending = [] ∧ ¬ running.Due ∧ running.Live)
      ∧ (stopping.pending = [] ∧ ¬ stopping.Due ∧ stopping.Live) := by
  simp only [← State.eventDue_iff, State.Live]; decide +kernel

theorem witness_RawLevelChangeDepartsReturnsOrFollows :
    (false = running.lines.lines[3].raw)
      ∧ (false ≠ faulted.lines.lines[3].raw ∧ faulted.run.runState = .faulted)
      ∧ (let s := withL3 { raw := false, debounce := 1, qualifying := none, level := false }
        let x := s.lines.lines[3]
        true ≠ x.raw ∧ s.run.runState ≠ .faulted ∧ x.debounce ≠ 0 ∧ x.qualifying = none
          ∧ true ≠ x.level)
      ∧ (let s := withL3 { raw := true, debounce := 255, qualifying := some 254, level := false }
        let x := s.lines.lines[3]
        false ≠ x.raw ∧ s.run.runState ≠ .faulted ∧ x.debounce ≠ 0 ∧ x.qualifying ≠ none
          ∧ false = x.level)
      ∧ (true ≠ running.lines.lines[5].raw ∧ running.run.runState ≠ .faulted
        ∧ running.lines.lines[5].debounce = 0) := by decide +kernel

theorem witness_QualificationSucceeds :
    let s := withL3 { raw := true, debounce := 255, qualifying := some 255, level := false }
    let x := s.lines.lines[3]
    s.run.runState ≠ .faulted ∧ x.qualifying = some 255 ∧ x.debounce.toNat ≤ 255
      ∧ x.raw ≠ x.level := by decide +kernel

theorem witness_PatternConditionAnyAll :
    (example22 .any).combine = .any ∧ (example22 .all).combine = .all := by decide +kernel

/-- A slot in a watch substate with one line event offered. -/
def offeredTo (a : ArmOrder) (w : WatchState) (word : LineWord) : State :=
  running.setSlot 4
    { armSlot a (.watching w) with offered := [{ time := 9, word := word, changed := 1 }] }

theorem witness_LineEventJudgedBySubstate :
    (let x := (offeredTo armHold .hold 2).slot 4
     x.order.kind = .arm armHold ∧ x.state = .watching .hold
       ∧ x.offered = { time := 9, word := 2, changed := 1 } :: []
       ∧ armHold.pattern.holds 2 = false)
      ∧ (let x := (offeredTo armHold .clearWait 3).slot 4
        x.order.kind = .arm armHold ∧ x.state = .watching .clearWait
          ∧ x.offered = { time := 9, word := 3, changed := 1 } :: []
          ∧ armHold.pattern.holds 3 = true)
      ∧ (let x := (offeredTo armHold .trueWait 3).slot 4
        x.order.kind = .arm armHold ∧ x.state = .watching .trueWait
          ∧ x.offered = { time := 9, word := 3, changed := 1 } :: [] ∧ armHold.holdTime ≠ 0)
      ∧ (let x := (offeredTo armEntry .trueWait 0x40).slot 4
        x.order.kind = .arm armEntry ∧ x.state = .watching .trueWait
          ∧ x.offered = { time := 9, word := 0x40, changed := 1 } :: []
          ∧ armEntry.pattern.holds 0x40 = true ∧ armEntry.holdTime = 0)
      ∧ running.run.runState = .running := by decide +kernel

theorem witness_LineEventJudgedBySubstate_no_entry :
    (offeredTo armEntry .trueWait 0x40).NoEntry 4 := by
  simp only [State.NoEntry]; decide +kernel

theorem witness_HoldAndDelayExpiryFire :
    (atHoldExpiry.run.runState = .running ∧ atHoldExpiry.NoEntry 4
      ∧ (atHoldExpiry.slot 4).order.kind = .arm armHold
      ∧ (atHoldExpiry.slot 4).state = .watching .hold
      ∧ (atHoldExpiry.slot 4).onset = some 5610 ∧ (atHoldExpiry.slot 4).holdTimer = some 200
      ∧ armHold.holdTime.toNat ≤ 200)
      ∧ (atDelayExpiry.run.runState = .running ∧ atDelayExpiry.NoEntry 0
        ∧ (atDelayExpiry.slot 0).order.kind = .sample 300
        ∧ (atDelayExpiry.slot 0).state = .delaying ∧ (atDelayExpiry.slot 0).delayTimer = some 300
        ∧ (300 : BitVec 24).toNat ≤ 300) := by
  simp only [State.NoEntry]; decide +kernel

/-- A follower whose arm timer has reached its 5 ms. -/
def gatedAtTimeout : State :=
  (gated (.opening 0)).setSlot 1 { (gated (.opening 0)).slot 1 with armTimer := some 5000 }

theorem witness_ArmExpiryFiresOrEnds :
    (let s := atBothExpiries true
     s.run.runState = .running ∧ (s.slot 9).order.kind = .arm armTimeout
       ∧ (s.slot 9).state = .watching .hold ∧ (s.slot 9).armTimer = some 3000
       ∧ armTimeout.armTimeout.toNat * 1000 ≤ 3000 ∧ armTimeout.fireOnTimeout = true
       ∧ s.NoEntry 9)
      ∧ (let s := gatedAtTimeout
        s.run.runState = .running ∧ (s.slot 1).order.kind = .arm armGated
          ∧ (s.slot 1).state = .gated ∧ (s.slot 1).armTimer = some 5000
          ∧ armGated.armTimeout.toNat * 1000 ≤ 5000 ∧ armGated.fireOnTimeout = false) := by
  simp only [State.NoEntry]; decide +kernel

theorem witness_FollowerOpensOrLosesGate :
    (∀ e ∈ [GateEvent.opening 3100, .loss 12000],
      (gated e).run.runState = .running ∧ ((gated e).slot 1).order.kind = .arm armGated
        ∧ ((gated e).slot 1).state = .gated ∧ ((gated e).slot 1).gateEvents = e :: [])
      ∧ (gated (.opening 3100)).NoEntry 1 := by
  simp only [State.NoEntry]; decide +kernel

/-- A RUNNING slot 4 with a FIRED record to hand on, and `n` records in the Post Queue. -/
def withFired (n : Nat) : State :=
  { running.setSlot 4 { continuous with pendingFired := some fired1 } with
    post.queue := List.replicate n (.notice badNotice) }

theorem witness_FiredRecordLeavesSlot :
    (withFired 23).Live ∧ (withFired 23).HasRoom
      ∧ ((withFired 23).slot 4).pendingFired = some fired1 := by
  simp only [State.Live, State.HasRoom]; decide +kernel

/-- A slot in CLOSING that ended OK, its last page done. -/
def lastPageDone : State :=
  running.setSlot 2
    { armSlot armEntry .closing with endReason := some .ok, firings := 2, handOn := .pageDone }

theorem witness_FiringCompletionIsCounted :
    (atCompletion.AwaitsCompletion 2 ∧ atCompletion.NoEntry 2)
      ∧ ((lastPageDone.slot 2).handOn = .pageDone ∧ (lastPageDone.slot 2).pendingFired = none
        ∧ lastPageDone.Live ∧ (lastPageDone.slot 2).state = .closing
        ∧ (lastPageDone.slot 2).endReason = some .ok) := by
  simp only [← State.canReturn_iff, State.NoEntry, State.Live]; decide +kernel

/-- A slot in CLOSING with everything handed on. -/
def handedOn (reason : EndReason) : State :=
  inState .stopping (running.setSlot 0
    { armSlot armHold .closing with
      endReason := some reason, endTime := some 3612
      handOn := if reason = .ok then .completed else .pageDone })

theorem witness_OrderDoneFreesSlot :
    (∀ reason ∈ [EndReason.ok, .halted],
      let s := handedOn reason
      let x := s.slot 0
      s.Live ∧ s.HasRoom ∧ x.state = .closing ∧ x.endReason = some reason
        ∧ x.endTime = some 3612 ∧ x.inConversion = false ∧ x.inStaging = 0 ∧ x.pendingFired = none
        ∧ x.openPage = none ∧ x.closingPage = none ∧ (reason = .ok → x.handOn = .completed)
        ∧ (reason ≠ .ok → x.handOn = .pageDone) ∧ (∀ j, ¬ (s.slot j).LinksTo 0))
      ∧ (∀ j, j ≠ 0 → ((handedOn .ok).slot j).state = .free)
      ∧ (∃ j, j ≠ 0 ∧ (((handedOn .ok).setSlot 5 continuous).slot j).state ≠ .free) := by
  simp only [State.Live, State.HasRoom, Slot.LinksTo]; decide +kernel

/-- The grid point of 1100 with no entry waiting. -/
def gridPointAlone : State := { atGridPoint 2 1 with sched.due := [] }

theorem witness_IntervalExpiryMakesScanDue :
    (let s := gridPointAlone
     let x := s.slot 8
     s.run.runState = .running ∧ x.state = .running ∧ x.order.interval ≠ 0
       ∧ x.intervalTimer = some 50 ∧ x.order.interval.toNat ≤ 50 ∧ s.NoEntry 8)
      ∧ (let s := atGridPoint 1 0
        let x := s.slot 8
        s.run.runState = .running ∧ x.state = .running ∧ x.order.interval ≠ 0
          ∧ x.intervalTimer = some 50 ∧ x.order.interval.toNat ≤ 50 ∧ ¬ s.NoEntry 8
          ∧ x.resolved + 1 < x.order.scanCount.toNat) := by
  simp only [State.NoEntry]; decide +kernel

/-- Three entries in grant order: by class, by due time, by slot. -/
def queue3 : List DueEntry :=
  [{ slot := 9, priority := 0, due := 50, firingIndex := 0 },
   { slot := 7, priority := 1, due := 40, firingIndex := 0 },
   { slot := 8, priority := 1, due := 40, firingIndex := 0 }]

theorem witness_DueQueueKeepsGrantOrder :
    (GrantOrdered queue3 ∧ ∀ d ∈ queue3, d.slot ≠ 3) ∧ GrantOrdered queue3 ∧ queue3.Perm queue3 := by
  simp [GrantOrdered, ComesBefore, queue3]

/-- The grant of 40000 with three results in staging. -/
def atGrant3 : State :=
  { atGrant with sched.staging := [resultOf 1 0 [], resultOf 2 0 [], resultOf 3 0 []] }

theorem witness_GrantStartsHeadScan :
    (let s := atGrant3
     s.Live ∧ s.sched.conversion = none ∧ s.sched.staging.length < 4
       ∧ s.sched.due = { slot := 5, priority := 1, due := 39990, firingIndex := 0 }
         :: [{ slot := 8, priority := 2, due := 39000, firingIndex := 0 }])
     ∧ ¬ State.reset.Live ∧ (converting scan44).sched.conversion ≠ none
     ∧ 4 ≤ (List.replicate 4 (resultOf 1 0 [])).length ∧ running.sched.due = [] := by
 simp only [State.Live]; decide +kernel

-- The scan of Table 4-4 with two entries left. -/
def secondEntry (made : Nat) (phase : Phase) : Conversion :=
  { scan44 with values := [1], made := made, phase := phase }

/-- The scan of Table 4-4 in its last conversion. -/
def lastEntry : Conversion := { scan44 with values := [1, 2], made := 1, phase := .converting 2 }

theorem witness_ConversionRunsEntryByEntry :
    (∀ c ∈ [scan44, secondEntry 6 (.converting 2), secondEntry 7 (.converting 2), lastEntry],
      (converting c).Live ∧ (converting c).sched.conversion = some c)
      ∧ (scan44.entries[scan44.values.length]? = some { channel := 0, averaging := 1 }
        ∧ scan44.phase = .settling 10 ∧ (copy0.channels[(0 : Fin 12)]).settle.toNat ≤ 10)
      ∧ (let c := secondEntry 6 (.converting 2)
        c.entries[c.values.length]? = some { channel := 3, averaging := 8 }
          ∧ c.phase = .converting 2 ∧ c.made + 1 < (8 : Byte).toNat)
      ∧ (let c := secondEntry 7 (.converting 2)
        c.entries[c.values.length]? = some { channel := 3, averaging := 8 }
          ∧ (8 : Byte).toNat ≤ c.made + 1 ∧ c.values.length + 1 < c.entries.length)
      ∧ (let c := lastEntry
        c.entries[c.values.length]? = some { channel := 7, averaging := 2 }
          ∧ (2 : Byte).toNat ≤ c.made + 1 ∧ c.values.length + 1 = c.entries.length) := by
  simp only [State.Live]; decide +kernel

theorem witness_ConversionCodeRoundsDownAndClamps :
    ((-10000000000 : Int) ≤ -10000000000)
      ∧ (10000000000 * 16383 ≤ (9999389649 : Int) * 16384)
      ∧ ((-10000000000 : Int) ≤ 9999999999 ∧ (9999999999 : Int) < 10000000000) := by decide +kernel

/-- The Pool Ring offers four entries past the wrap. -/
def poolOffers : State := { running with pages.poolHead := 15, window.poolTail := 3 }

/-- The Order Ring offers orders and one order number is left. -/
def ordersOffered : State :=
  { running with fetch.head := 15, window.orderTail := 3, run.orderNumber := 0xFFFFFFFE }

theorem witness_ReadsAreIssuedAtTheHeads :
    (poolOffers.run.runState = .running ∧ poolOffers.pages.poolRead = none
        ∧ poolOffers.pages.cache.length < 8
        ∧ poolOffers.pages.poolHead ≠ poolOffers.window.poolTail)
      ∧ (ordersOffered.run.runState = .running ∧ ordersOffered.fetch.state = .idle
        ∧ ordersOffered.window.orderTail ≠ ordersOffered.fetch.head
        ∧ ordersOffered.run.orderNumber ≠ 0xFFFFFFFF) := by decide +kernel

theorem witness_DescriptorJoinsCacheOrIsBad :
    (poolReading.Live ∧ poolReading.pages.poolRead
        = some { tag := 7, address := 0x20F0, elapsed := 2, refused := false })
      ∧ ((BitVec.ofNat 128 0).extractLsb' 0 64 : BitVec 64) = 0
      ∧ ¬ 64 ∣ ((BitVec.ofNat 128 65).extractLsb' 0 64 : BitVec 64).toNat
      ∧ (((BitVec.ofNat 128 64).extractLsb' 0 64 : BitVec 64) ≠ 0
        ∧ 64 ∣ ((BitVec.ofNat 128 64).extractLsb' 0 64 : BitVec 64).toNat) := by
  simp only [State.Live]; decide +kernel

/-- Slot 1 of an order of two scans, its second result in staging, its first stored. -/
def secondResult (cache : List Descriptor) (page : Option OpenPage) : State :=
  staged 1
    { armSlot armHold .running with dueCount := 2, resolved := 1, stored := 1, openPage := page }
    (resultOf 1 0 [8201, 16383, 0]) cache

theorem witness_ResultIsStored :
    (let s := secondResult [] (some (page3 1004 49))
     let x := s.slot 1
     s.Live ∧ s.sched.staging = resultOf 1 0 [8201, 16383, 0] :: [] ∧ s.PageWriterTakes 900
       ∧ (x.state = .running → x.order.interval = 0 → s.NoEntry 1)
       ∧ (x.state = .running → x.order.scanCount ≠ 0 → x.resolved < x.dueCount)
       ∧ x.openPage = some (page3 1004 49)
       ∧ 1004 + (12 + 2 * 3 + 3) / 4 * 4 ≤ s.run.copy.pageSize.toNat)
      ∧ (let s := secondResult [{ address := 0x40, ident := 1 }] none
         let x := s.slot 1
         s.Live ∧ s.sched.staging = resultOf 1 0 [8201, 16383, 0] :: [] ∧ s.PageWriterTakes 900
           ∧ (x.state = .running → x.order.interval = 0 → s.NoEntry 1)
           ∧ (x.state = .running → x.order.scanCount ≠ 0 → x.resolved < x.dueCount)
           ∧ x.openPage = none ∧ s.pages.cache = { address := 0x40, ident := 1 } :: []) := by
  simp only [← State.mayWork_iff, State.Live, State.NoEntry]; decide +kernel

/-- Table 5-7 with the full page's close waiting. -/
def stalled24 : State := after .resultTaken (atStall 24)

theorem witness_ResultIsStored_stalled :
    stalled24.Live ∧ stalled24.sched.staging = resultOf 3 0 [8201, 16383, 0] :: []
      ∧ ¬ stalled24.PageWriterTakes 900 := by
  simp only [← State.mayWork_iff, State.Live]; decide +kernel

theorem witness_ResultIsDroppedWithoutPage :
    (let s := secondResult [] none
     let x := s.slot 1
     s.Live ∧ s.sched.staging = resultOf 1 0 [8201, 16383, 0] :: [] ∧ s.PageWriterTakes 900
       ∧ (x.state = .running → x.order.interval = 0 → s.NoEntry 1)
       ∧ (x.state = .running → x.order.scanCount ≠ 0 → x.resolved < x.dueCount)
       ∧ x.openPage = none ∧ s.pages.cache = [])
      ∧ stalled24.Live ∧ stalled24.sched.staging = resultOf 3 0 [8201, 16383, 0] :: []
      ∧ ∃ j, (stalled24.slot j).closingPage ≠ none := by
  simp only [← State.mayWork_iff, State.Live, State.NoEntry]; decide +kernel

/-- The stall of `stalled24` over, with a request of slot 2 of this moment beside. -/
def stallOver : State :=
  let s := after (.pageClose 3) (after .recordWrite stalled24)
  s.setSlot 2 { continuous with
    state := .closing, endReason := some .halted, endTime := some 90000
    openPage := some (page3 36 1), requestSince := some { arose := 1000, held := false } }

theorem witness_PageCloseBegins :
    (let s := atPageEnd 1016 50
     s.Live ∧ s.sched.staging = resultOf 3 0 [8201, 16383, 0] :: [] ∧ s.PageWriterTakes 900
       ∧ (s.slot 3).openPage = some (page3 1016 50)
       ∧ s.run.copy.pageSize.toNat < 1016 + (12 + 2 * 3 + 3) / 4 * 4)
      ∧ (let s := atCloseRequest true
         s.Live ∧ (s.slot 3).Asks ∧ (s.slot 3).openPage = some (page3 36 1)
           ∧ s.PageWriterTakes (s.askedAt 3))
      ∧ (let s := atCloseRequest false
         s.Live ∧ (s.slot 3).Asks ∧ (s.slot 3).openPage = none ∧ (s.slot 3).closingPage = none)
      ∧ (atFlush.Live
        ∧ (atFlush.slot 3).openPage = some { page3 36 1 with expired := some (.fresh 0) }
        ∧ atFlush.PageWriterTakes 0) := by
  simp only [← State.mayWork_iff, State.Live, Slot.Asks]; decide +kernel

/-- The clauses in which the Page Writer does not take the work: a result that finds no room beside a
close under way, and after a stall a request and an expiry younger than the result it held up. -/
theorem witness_PageCloseBegins_stalled :
    (let s := (atPageEnd 1016 50).setSlot 1 { continuous with closingPage := some endOfFiring }
     s.Live ∧ s.sched.staging = resultOf 3 0 [8201, 16383, 0] :: []
       ∧ (s.slot 3).openPage = some (page3 1016 50)
       ∧ s.run.copy.pageSize.toNat < 1016 + (12 + 2 * 3 + 3) / 4 * 4
       ∧ ¬ s.PageWriterTakes 900)
      ∧ (stallOver.Live ∧ (stallOver.slot 2).Asks ∧ (stallOver.slot 2).openPage = some (page3 36 1)
        ∧ ¬ stallOver.PageWriterTakes (stallOver.askedAt 2))
      ∧ ((stallOver.slot 5).openPage
            = some { page3 36 1 with expired := some { arose := 950, held := true } }
        ∧ ¬ stallOver.PageWriterTakes 950) := by
  simp only [← State.mayWork_iff, State.Live, Slot.Asks]; decide +kernel

theorem witness_PageCloseWritesHeaderThenPosts :
    (let s := after .resultTaken (atPageEnd 1016 50)
     s.Live ∧ s.HasRoom ∧ (s.slot 3).pendingFired = none ∧ (s.slot 3).closingPage
       = some { page := page3 1016 50, flags := PageFlags.none, requested := false })
      ∧ (stalled24.Live ∧ (stalled24.slot 3).closingPage
          = some { page := page3 1016 50, flags := PageFlags.none, requested := false }
        ∧ ¬ stalled24.HasRoom)
      ∧ ((lastRecord (some fired1) (some endOfFiring)).slot 6).pendingFired ≠ none := by
  simp only [State.Live, State.HasRoom]; decide +kernel

/-- Two cached descriptors left at a stop. -/
def twoCached (s : State) : State :=
  { s with pages.cache := [{ address := 0x40, ident := 1 }, { address := 0x80, ident := 2 }] }

theorem witness_UnusedDescriptorReturns :
    (let s := twoCached (inState .stopping running)
     s.pages.cache = { address := 0x40, ident := 1 } :: [{ address := 0x80, ident := 2 }]
       ∧ s.run.runState = .stopping ∧ (∀ j, (s.slot j).state = .free) ∧ s.pages.poolRead = none
       ∧ s.HasRoom)
      ∧ (∃ j, ((twoCached stopping).slot j).state ≠ .free)
      ∧ (twoCached poolReading).pages.poolRead ≠ none
      ∧ ¬ (twoCached (withFired 24)).HasRoom := by
  simp only [State.HasRoom]; decide +kernel

/-- Both notices latched. -/
def latched : State :=
  { running with post.dryNotice := some { badNotice with code := .poolDry }
                 post.badNotice := some badNotice }

theorem witness_NoticeLeavesLatchDryFirst :
    (latched.Live ∧ latched.HasRoom
      ∧ latched.post.dryNotice = some { badNotice with code := .poolDry })
      ∧ (after .noticeTaken latched).Live ∧ (after .noticeTaken latched).HasRoom
      ∧ (after .noticeTaken latched).post.dryNotice = none
      ∧ (after .noticeTaken latched).post.badNotice = some badNotice := by
  simp only [State.Live, State.HasRoom]; decide +kernel

theorem witness_RecordWriteAdvancesTailAndLap :
    (atWrap.Live ∧ atWrap.post.queue = .notice badNotice :: []
      ∧ atWrap.post.tail < atWrap.run.copy.doneSize.toNat)
      ∧ (15 + 16 - atWrap.window.doneHead) % 16 + 1 < 16
      ∧ (15 + 16 - 1) % 16 + 1 < 16 ∧ 16 ≤ (15 + 16 - 0) % 16 + 1 := by
  simp only [State.Live]; decide +kernel

/-- Moderation at its delay of 200 microseconds. -/
def atModeration : State := { atWrap with post.timer := some 200 }

theorem witness_ModerationExpirySignals :
    atModeration.Live ∧ atModeration.post.timer = some 200
      ∧ atModeration.run.copy.moderationDelay.toNat ≤ 200 := by
  simp only [State.Live]; decide +kernel

theorem witness_OrderDataIsHeldOrDiscarded :
    (reading.fetch.read = some { read := { tag := 5, address := 0x1000, elapsed := 3,
                                           refused := false }, withdrawn := false }
      ∧ reading.run.runState = .running)
      ∧ (after (.orderTailWrite 0) reading).fetch.read
        = some { read := { tag := 5, address := 0x1000, elapsed := 3, refused := false },
                 withdrawn := true }
      ∧ (inState .stopping reading).run.runState = .stopping
      ∧ (inState .stopping reading).fetch.read.map OrderRead.withdrawn = some false := by
  decide +kernel

/-- What taking a held order of `holding` asks of the state. -/
theorem holding_mayTake (o : OrderImage) :
    (holding o).MayTake { image := o, detail := validate copy0.channels o } := by
  simp only [State.MayTake]; exact ⟨rfl, rfl, rfl, Nat.succ_ne_zero 2⟩

/-- An ARM without a gate held while slot 0 is taken by an order of the given tag and state. -/
def holdingBeside (o : OrderImage) (tag : BitVec 16) (state : SlotState) : State :=
  (holding o).setSlot 0 { armSlot armHold state with order := { orderOf (.arm armHold) with tag := tag } }

theorem holdingBeside_mayTake (o : OrderImage) (tag : BitVec 16) (state : SlotState) :
    (holdingBeside o tag state).MayTake { image := o, detail := validate copy0.channels o }
      ∧ (holdingBeside o tag state).HasRoom := by
  simp only [State.MayTake, State.HasRoom]; exact ⟨⟨rfl, rfl, rfl, Nat.succ_ne_zero 2⟩, Nat.zero_lt_succ 23⟩

theorem witness_ArmIsAdmittedOrRefused :
    validate copy0.channels order1 = 0 ∧ validate copy0.channels order2 = 0
      ∧ order1.kind = 1 ∧ order2.kind = 1
      ∧ (∀ tag state, state ≠ .free → (holdingBeside order1 tag state).LowestFree 1
        ∧ (holdingBeside order2 tag state).LowestFree 1)
      ∧ (order1.copy 1).kind = .arm { pattern := { mask := 4, levels := 4, combine := .any, fireMode := .level }
                                      holdTime := 100, armTimeout := 0, fireOnTimeout := false, gateTag := none }
      ∧ (order2.copy 1).kind = .arm armGated := by
  refine ⟨by decide +kernel, by decide +kernel, by decide +kernel, by decide +kernel, ?_,
    by decide +kernel, by decide +kernel⟩
  intro tag state h
  have free : ∀ o, (holdingBeside o tag state).LowestFree 1 := fun o =>
    ⟨rfl, fun j hj => by
      have : j = 0 := Fin.ext (by have := hj; simp [Fin.lt_def] at this; omega)
      subst this; exact h⟩
  exact ⟨free _, free _⟩

/-- The clauses: a tag in use; a gate tag held only in CLOSING; a gate with a live target; no gate. -/
theorem witness_ArmIsAdmittedOrRefused_clauses :
    (holdingBeside order1 0x0010 .running).Holds 0 (order1.copy 1).tag
      ∧ ((∀ j, ¬ (holdingBeside order2 0x0010 .closing).Holds j (order2.copy 1).tag)
        ∧ armGated.gateTag = some 0x0010
        ∧ (∀ j, (holdingBeside order2 0x0010 .closing).Holds j 0x0010 →
            ((holdingBeside order2 0x0010 .closing).slot j).state = .closing))
      ∧ ((∀ j, ¬ (holdingBeside order2 0x0010 .running).Holds j (order2.copy 1).tag)
        ∧ TagsDistinct (holdingBeside order2 0x0010 .running)
        ∧ (holdingBeside order2 0x0010 .running).Holds 0 0x0010
        ∧ ((holdingBeside order2 0x0010 .running).slot 0).state ≠ .closing)
      ∧ ((∀ j, ¬ (holdingBeside order1 7 .running).Holds j (order1.copy 1).tag)
        ∧ (holdingBeside order1 7 .running).NoEntry 1) := by
  simp only [State.Holds, TagsDistinct, State.NoEntry]; decide +kernel

theorem witness_SampleIsAdmittedOrRefused :
    (∀ d ∈ [0, 9], validate copy0.channels (sampleOrder d) = 0 ∧ (sampleOrder d).kind = 2
      ∧ ((sampleOrder d).copy 1).kind = .sample (BitVec.ofNat 24 d))
      ∧ (holding (sampleOrder 0)).LowestFree 0 ∧ (holding (sampleOrder 0)).NoEntry 0
      ∧ (∀ j, ¬ (holding (sampleOrder 9)).Holds j ((sampleOrder 9).copy 1).tag)
      ∧ (holdingBeside (sampleOrder 9) 0x0102 .gated).LowestFree 1
      ∧ (holdingBeside (sampleOrder 9) 0x0102 .gated).Holds 0 ((sampleOrder 9).copy 1).tag := by
  simp only [State.Holds, State.NoEntry, State.LowestFree]; decide +kernel

theorem witness_CancelEndsTargetOrFindsNone :
    validate copy0.channels (cancelOrder 0x60) = 0 ∧ (cancelOrder 0x60).kind = 3
      ∧ (cancelOrder 0x60).targetTag = 0x0060
      ∧ (TagsDistinct (holdingBeside (cancelOrder 0x60) 0x0060 .gated)
        ∧ (holdingBeside (cancelOrder 0x60) 0x0060 .gated).Holds 0 0x0060
        ∧ ((holdingBeside (cancelOrder 0x60) 0x0060 .gated).slot 0).state ≠ .closing
        ∧ ¬ (holdingBeside (cancelOrder 0x60) 0x0060 .gated).AwaitsCompletion 0)
      ∧ (let s := after (.pageClose 6) (lastRecord none (some endOfFiring))
         TagsDistinct s ∧ s.Holds 6 0x0060 ∧ (s.slot 6).state ≠ .closing ∧ s.AwaitsCompletion 6
           ∧ s.NoEntry 6)
      ∧ (∀ j, (holdingBeside (cancelOrder 0x60) 0x0060 .closing).Holds j 0x0060 →
          ((holdingBeside (cancelOrder 0x60) 0x0060 .closing).slot j).state = .closing)
      ∧ (∀ j, (holding (cancelOrder 0x60)).Holds j 0x0060 →
          ((holding (cancelOrder 0x60)).slot j).state = .closing) := by
  simp only [← State.canReturn_iff, State.Holds, TagsDistinct, State.NoEntry]; decide +kernel

theorem witness_LinesSetsDebounceTimes :
    validate copy0.channels linesOrder = 0 ∧ linesOrder.kind = 4 ∧ (holding linesOrder).HasRoom
      ∧ linesOrder.lineMask.getLsbD 3 = true ∧ linesOrder.lineMask.getLsbD 4 = false := by
  simp only [State.HasRoom]; decide +kernel

theorem witness_FenceWaitsForItsOutcome :
    (validate copy0.channels fenceOrder = 0 ∧ fenceOrder.kind = 5
      ∧ (∃ j, ((holdingBeside fenceOrder 7 .running).slot j).state ≠ .free)
      ∧ (∀ j, ((holding fenceOrder).slot j).state = .free))
      ∧ ((fenced fence2).Live ∧ (fenced fence2).fetch.fence = some fence2 ∧ fence2.outcome = none
        ∧ fence2.timer = some 20000 ∧ fence2.limit.toNat * 1000 ≤ 20000)
      ∧ (let f : Fence := { fence2 with timer := none, outcome := some (.ok, 5902) }
         (fenced f).Live ∧ (fenced f).HasRoom ∧ (fenced f).fetch.fence = some f
           ∧ f.outcome = some (.ok, 5902)) := by
  simp only [State.Live, State.HasRoom]; decide +kernel

theorem witness_InvalidOrderIsAnswered :
    (holding 0).HasRoom ∧ validate copy0.channels 0 ≠ 0 := by
  simp only [State.HasRoom]; decide +kernel

theorem witness_RunWrittenOneBeginsStart :
    State.reset.run.runState = .stopped
      ∧ ¬ 64 ∣ ((0 : BitVec 32) ++ (63 : BitVec 32) : BitVec 64).toNat
      ∧ 64 ∣ ((1 : BitVec 32) ++ (64 : BitVec 32) : BitVec 64).toNat
      ∧ starting.run.runState = .starting ∧ running.run.runState = .running
      ∧ faulted.run.runState = .faulted ∧ stopping.run.runState = .stopping := by decide +kernel

/-- RUNNING with a CLOSING slot 2, a target in slot 0 and its follower in slot 1. -/
def beforeHalt : State :=
  (gated (.loss 5)).setSlot 2 { armSlot armHold .closing with endReason := some .cancelled }

theorem witness_RunWrittenZeroHaltsEverySlot :
    (∀ j, beforeHalt.AwaitsCompletion j → beforeHalt.NoEntry j)
      ∧ (let s := after (.pageClose 6) (lastRecord none (some endOfFiring))
         s.run.runState = .running ∧ s.AwaitsCompletion 6
           ∧ ∀ j, s.AwaitsCompletion j → s.NoEntry j)
      ∧ beforeHalt.run.runState = .running ∧ (beforeHalt.slot 2).state = .closing
      ∧ (beforeHalt.slot 3).state = .free
      ∧ ((2 : BitVec 32).getLsbD 1 = true ∧ (beforeHalt.slot 1).state = .gated
        ∧ ∀ e ∈ (beforeHalt.slot 1).gateEvents, e = .loss 5)
      ∧ ((beforeHalt.slot 0).state = .watching .trueWait) := by
  simp only [← State.canReturn_iff, State.NoEntry]; decide +kernel

theorem witness_RunWrittenZeroLeavesFaulted :
    State.reset.run.runState = .stopped ∧ starting.run.runState = .starting
      ∧ stopping.run.runState = .stopping ∧ faulted.run.runState = .faulted := by decide +kernel

theorem witness_ResetsGiveResetValues :
    running.run.runState ≠ .faulted ∧ faulted.run.runState = .faulted
      ∧ (Instr.linkReset = .powerOnReset ∨ Instr.linkReset = .linkReset) := by decide +kernel

theorem witness_EventWritesClearAndEnable :
    AccessWidth.bits32 = .bits32 ∧ AccessWidth.bits64 ≠ .bits32 := by decide +kernel

theorem witness_TailWritesAreChecked :
    State.reset.run.runState = .stopped ∧ faulted.run.runState = .faulted
      ∧ starting.run.runState = .starting ∧ (1 : BitVec 32).toNat ≠ 0 ∧ (0 : BitVec 32).toNat = 0
      ∧ reading.Live ∧ reading.run.copy.poolSize.toNat ≤ (16 : BitVec 32).toNat
      ∧ (15 : BitVec 32).toNat < reading.run.copy.poolSize.toNat
      ∧ reading.run.copy.orderSize.toNat ≤ (16 : BitVec 32).toNat
      ∧ (15 : BitVec 32).toNat < reading.run.copy.orderSize.toNat
      ∧ ((0 : BitVec 32).toNat = reading.fetch.head ∧ reading.fetch.state = .reading)
      ∧ ((holding order1).Live ∧ (0 : BitVec 32).toNat = (holding order1).fetch.head
        ∧ (holding order1).fetch.state = .holding)
      ∧ (15 : BitVec 32).toNat ≠ reading.fetch.head
      ∧ ((fenced fence2).Live ∧ (fenced fence2).fetch.state ≠ .reading
        ∧ (fenced fence2).fetch.state ≠ .holding) := by
  simp only [State.Live]; decide +kernel

/-- The ring of Table 7-6 after record D. -/
def afterD : State := { atWrap with post.tail := 2, post.lap := false }

theorem witness_DoneHeadReleasesWrittenRecords :
    State.reset.run.runState = .stopped ∧ starting.run.runState = .starting
      ∧ (1 : BitVec 32).toNat ≠ 0 ∧ (0 : BitVec 32).toNat = 0 ∧ afterD.Live
      ∧ ((2 : BitVec 32).toNat < afterD.run.copy.doneSize.toNat
        ∧ (2 + 16 - afterD.window.doneHead) % 16 ≤ (afterD.post.tail + 16 - afterD.window.doneHead) % 16)
      ∧ afterD.run.copy.doneSize.toNat ≤ (16 : BitVec 32).toNat
      ∧ (afterD.post.tail + 16 - afterD.window.doneHead) % 16 < (3 + 16 - afterD.window.doneHead) % 16 := by
  simp only [State.Live]; decide +kernel

theorem witness_RegisterWriteStoresOrRefuses :
    AccessWidth.bits16 ≠ .bits32 ∧ ¬ 4 ∣ (0x15 : BitVec 6).toNat
      ∧ (0x2C : BitVec 6) ∈ [(0x00 : BitVec 6), 0x08, 0x28, 0x2C] ∧ 0x30 ≤ (0x30 : BitVec 6).toNat := by
  decide +kernel

theorem witness_WindowReadsWhatTheCardHolds :
    (16 ≤ 16) ∧ AccessWidth.bits64 ≠ .bits32 ∧ ¬ 4 ∣ (0x2D : BitVec 6).toNat
      ∧ 0x30 ≤ (0x3F : BitVec 6).toNat := by decide +kernel

/-- The data of the Setup Record of the tests. -/
def setupData : BitVec 1024 := BitVec.ofNat 1024 (bytesOf setupBytes)

theorem witness_SetupDataStartsRunOrEndsStart :
    (starting.run.runState = .starting
      ∧ starting.run.setupRead = some { tag := 0, address := 0x8000, elapsed := 0, refused := false })
      ∧ ({ starting with window.run := false }.window.run = false)
      ∧ (starting.window.run = true ∧ (SetupCopy.ofRecord 0).verdict ≠ .ok)
      ∧ (SetupCopy.ofRecord setupData).verdict = .ok := by
  simp only [← SetupCopy.check_verdict]; decide +kernel

/-- A setup read whose 50 ms are over. -/
def startingLate : State :=
  { starting with
    run.setupRead := some { tag := 0, address := 0x8000, elapsed := 50000, refused := false } }

theorem witness_SetupReadErrorEndsStart :
    startingLate.run.runState = .starting ∧ startingLate.run.setupRead
      = some { tag := 0, address := 0x8000, elapsed := 50000, refused := false } := by decide +kernel

/-- An order read and a pool read whose 50 ms are over. -/
def readsLate : State :=
  { reading with
    fetch.read := some { read := { tag := 5, address := 0x1000, elapsed := 50000, refused := false },
                         withdrawn := false }
    pages.poolRead := some { tag := 7, address := 0x20F0, elapsed := 50000, refused := false } }

theorem witness_BusErrorsEnterFaulted :
    readsLate.Live
      ∧ readsLate.fetch.read = some { read := { tag := 5, address := 0x1000, elapsed := 50000,
                                                refused := false }, withdrawn := false }
      ∧ readsLate.pages.poolRead
        = some { tag := 7, address := 0x20F0, elapsed := 50000, refused := false }
      ∧ (∀ o, readsLate.fetch.read = some o → o.read.tag ≠ 7)
      ∧ starting.run.runState = .starting ∧ State.reset.run.runState = .stopped
      ∧ faulted.run.runState = .faulted := by
  refine ⟨.inl rfl, rfl, rfl, ?_, rfl, rfl, rfl⟩
  rintro o h; cases h; decide

theorem witness_StopCompletesWhenDrained :
    (let s := inState .stopping running
     s.run.runState = .stopping ∧ s.fetch.read = none ∧ s.fetch.fence = none
       ∧ (∀ j, (s.slot j).state = .free) ∧ s.sched.conversion = none ∧ s.sched.staging = []
       ∧ s.pages.poolRead = none ∧ s.pages.cache = [] ∧ s.post.queue = []
       ∧ s.post.dryNotice = none ∧ s.post.badNotice = none ∧ s.post.gathered = 0
       ∧ { s with post.gathered := 1 }.post.gathered ≠ 0)
      ∧ (stopping.run.runState = .stopping ∧ ¬ ∀ j, (stopping.slot j).state = .free) := by
  decide +kernel

theorem witness_WrittenRecordsHaveTheirLayout :
    4095 < 4096 ∧ ((CompletionRecord.fired fired1).bytes true 4095)[0]? = some 0x82
      ∧ [(8201 : BitVec 14), 16383, 0][2]? = some 0 := by decide +kernel

theorem witness_ReadRecordsAreDecodedByLayout :
    byteOf order1 0 = 1 ∧ (byteOf order1 4).toNat ≤ 3 ∧ (byteOf order1 0x20).toNat ≤ 11
      ∧ (order1.copy 1).entries[0]? = some { channel := 0, averaging := 1 }
      ∧ (byteOf order2 1).getLsbD 2 = true ∧ (byteOf order1 1).getLsbD 2 = false
      ∧ byteOf (sampleOrder 9) 0 = 2 := by decide +kernel

/-! ### A state that meets every invariant

Order 1 watches in slot 0 and order 2 is gated on it in slot 1; the opening of the gate waits to be
taken. -/

/-- The two orders of section 10.6, the gate just opened. -/
def twoStage : State :=
  { gated (.opening 5) with pending := [.gateOpening 1], run.orderNumber := 2 }

theorem twoStage_other (i : Fin 32) (h0 : i ≠ 0) (h1 : i ≠ 1) : twoStage.slot i = Slot.free := by
  revert i; decide +kernel

theorem witness_step_completes : ∃ t, step twoStage = .next t := ⟨_, rfl⟩

theorem witness_EveryStepKeepsCapacities : WithinCapacity twoStage := by
  simp only [WithinCapacity]; decide +kernel

theorem witness_EveryStepKeepsGrantOrder : GrantOrdered twoStage.sched.due :=
  ⟨List.Pairwise.nil, List.nodup_nil⟩

theorem witness_EveryStepKeepsTagsDistinct : TagsDistinct twoStage := by
  simp only [TagsDistinct]; decide +kernel

theorem witness_EveryStepKeepsLinesSettled : LinesSettled twoStage := by
  intro l
  have h : ∀ l : Fin 16, twoStage.lines.lines[l].qualifying = none
      ∧ twoStage.lines.lines[l].raw = twoStage.lines.lines[l].level := by decide +kernel
  refine ⟨fun _ => ?_, fun _ => (h l).1⟩
  simp only [Line.Settled, (h l).1]; exact (h l).2

theorem witness_EveryStepKeepsGatesLinked : GatesLinkBackward twoStage := by
  refine ⟨by decide +kernel, by decide +kernel, by decide +kernel, fun j hj => ?_⟩
  have : j = 1 := by revert j; decide +kernel
  subst this
  exact ⟨⟨armGated, rfl⟩, 0, rfl, by decide +kernel, by decide +kernel, fun h => by
    exact absurd h (by decide +kernel)⟩

theorem witness_EveryStepKeepsScansAccounted : ScansAccounted twoStage := by
  intro i
  have none : twoStage.sched.due = [] ∧ twoStage.sched.conversion = none
      ∧ twoStage.sched.staging = [] := ⟨rfl, rfl, rfl⟩
  by_cases h0 : i = 0
  · subst h0
    simp [State.MarksAgree, State.Accounted, State.NoEntry, State.outstanding, none,
      show (twoStage.slot 0) = armSlot armHold (.watching .trueWait) from rfl, armSlot, Slot.holding,
      Slot.counted]
  by_cases h1 : i = 1
  · subst h1
    simp [State.MarksAgree, State.Accounted, State.NoEntry, State.outstanding, none,
      show (twoStage.slot 1) = { Slot.holding { orderOf (.arm armGated) with tag := 0x0020, number := 2 } .gated with
        gateTarget := some 0, armTimer := some 2095, gateEvents := [.opening 5] } from rfl,
      Slot.holding, Slot.counted]
  · simp [State.MarksAgree, State.Accounted, State.NoEntry, State.outstanding, none,
      twoStage_other i h0 h1, Slot.free, Slot.holding, OrderCopy.blank]

theorem witness_RunStateChangesOnlyByTable :
    Instr.stopComplete.wellFormed = true
      ∧ (∃ t, exec .stopComplete (inState .stopping running) = .next t) ∧ running.pending = []
      ∧ (∃ t, step running = .next t) := ⟨rfl, ⟨_, rfl⟩, rfl, _, rfl⟩

theorem witness_IssuedWritesStandAndFlagsLast :
    Instr.grant.wellFormed = true ∧ (∀ width value, Instr.grant ≠ .eventsWrite width value)
      ∧ Instr.grant ≠ .hostReset ∧ Instr.grant ≠ .powerOnReset ∧ Instr.grant ≠ .linkReset
      ∧ { running with events.flags := 16 }.events.flags.getLsbD 4 = true :=
  ⟨rfl, fun _ _ h => (by cases h), by decide, by decide, by decide, by decide⟩

end Sys2Proof.Tests
end

/-! ## What leaves the Line Monitor and the run state alone -/

section
namespace Sys2Proof.Machine

/-- The Line Monitor and the run state: all that the invariant of the lines speaks of. -/
def State.monitor (s : State) : LineMonitor × RunState := (s.lines, s.run.runState)

variable (s : State) (i : Fin 32)

/-! ### The shared operations -/

@[simp] theorem State.monitor_setSlot (x : Slot) : (s.setSlot i x).monitor = s.monitor := rfl

@[simp] theorem State.monitor_postRecord (r : CompletionRecord) :
    (s.postRecord r).monitor = s.monitor := rfl

@[simp] theorem State.monitor_withEvents (e : EventLogic) :
    (s.withEvents e).monitor = s.monitor := by
  rw [State.withEvents_eventsBecome]; rfl

@[simp] theorem State.monitor_setFlag (f : EventFlag) : (s.setFlag f).monitor = s.monitor :=
  s.monitor_withEvents _

@[simp] theorem State.monitor_refuseWrite : s.refuseWrite.monitor = s.monitor := s.monitor_setFlag _

@[simp] theorem State.monitor_noteRequest : (s.noteRequest i).monitor = s.monitor := by
  obtain ⟨y, -, h⟩ := s.noteRequest_asked i
  rw [h, State.monitor_setSlot]

@[simp] theorem State.monitor_closeSlot (reason : EndReason) (time : Timestamp) :
    (s.closeSlot i reason time).monitor = s.monitor := by
  obtain ⟨-, -, h⟩ := s.closeSlot_ends i reason time
  rw [h]; rfl

@[simp] theorem State.monitor_endFiring : (s.endFiring i).monitor = s.monitor := by
  unfold State.endFiring
  dsimp only
  split
  · split <;> simp
  · rfl

@[simp] theorem State.monitor_scanDue : (s.scanDue i).monitor = s.monitor := by
  unfold State.scanDue
  dsimp only
  split
  · simp
  · rfl

@[simp] theorem State.monitor_fire (cause : Cause) (onset time : Timestamp) :
    (s.fire i cause onset time).monitor = s.monitor :=
  State.monitor_scanDue _ i

@[simp] theorem State.monitor_enterWatch (time : Timestamp) :
    (s.enterWatch i time).monitor = s.monitor := by
  unfold State.enterWatch State.conditionTrue
  dsimp only
  repeat' split
  all_goals simp

@[simp] theorem State.monitor_returnToWatch : (s.returnToWatch i).monitor = s.monitor :=
  State.monitor_enterWatch _ i _

@[simp] theorem State.monitor_completeFiring : (s.completeFiring i).monitor = s.monitor := by
  unfold State.completeFiring; split <;> simp

@[simp] theorem State.monitor_afterResolved : (s.afterResolved i).monitor = s.monitor := by
  unfold State.afterResolved
  dsimp only
  split <;> simp

theorem State.monitor_dryDrop : s.dryDrop.monitor = s.monitor := by
  unfold State.dryDrop
  split
  · split <;> rfl
  · rfl

@[simp] theorem State.monitor_storeResult (r : ScanResult) (p : OpenPage) :
    (s.storeResult r p).monitor = s.monitor :=
  State.monitor_afterResolved _ _

@[simp] theorem State.monitor_dropResult (r : ScanResult) :
    (s.dropResult r).monitor = s.monitor := by
  refine (State.monitor_afterResolved _ _).trans ((State.monitor_setSlot _ _ _).trans ?_)
  exact State.monitor_dryDrop _

@[simp] theorem State.monitor_endStall : s.endStall.monitor = s.monitor := by
  unfold State.endStall; split <;> rfl

@[simp] theorem State.monitor_closePage (c : ClosingPage) :
    (s.closePage i c).monitor = s.monitor :=
  s.monitor_endStall

@[simp] theorem State.monitor_giveSlot (order : OrderCopy) (target : Option (Fin 32)) :
    (s.giveSlot i order target).monitor = s.monitor := by
  unfold State.giveSlot
  repeat' split
  all_goals simp

@[simp] theorem State.monitor_takeHeld : s.takeHeld.monitor = s.monitor := rfl

@[simp] theorem State.monitor_takeAndAnswer (h : HeldOrder) (status : Status) :
    (s.takeAndAnswer h status).monitor = s.monitor := rfl

@[simp] theorem State.monitor_takeSlotOrder : s.takeSlotOrder.monitor = s.monitor := by
  unfold State.takeSlotOrder State.takeForSlot
  repeat' split
  all_goals simp

@[simp] theorem State.monitor_settleFence (status : Status) :
    (s.settleFence status).monitor = s.monitor := rfl

@[simp] theorem State.monitor_fenceIfEmpty : s.fenceIfEmpty.monitor = s.monitor := by
  unfold State.fenceIfEmpty; split <;> rfl

@[simp] theorem State.monitor_signalDone : s.signalDone.monitor = s.monitor :=
  State.monitor_setFlag _ _

@[simp] theorem State.monitor_moderate : s.moderate.monitor = s.monitor := by
  unfold State.moderate
  dsimp only
  split
  · exact s.monitor_signalDone
  · rfl

@[simp] theorem State.monitor_flushModeration : s.flushModeration.monitor = s.monitor := by
  unfold State.flushModeration
  split
  · rfl
  · exact s.monitor_signalDone

/-! ### The effects of the commands -/

theorem State.monitor_takeNotice : s.takeNotice.monitor = s.monitor := by
  unfold State.takeNotice; split <;> rfl

theorem State.monitor_writeRecord : s.writeRecord.monitor = s.monitor := by
  unfold State.writeRecord
  split
  · rfl
  · dsimp only
    split
    · exact (State.monitor_setFlag _ _).trans (State.monitor_moderate _)
    · exact State.monitor_moderate _

theorem State.monitor_grantHead : s.grantHead.monitor = s.monitor := by
  unfold State.grantHead; split <;> rfl

theorem State.monitor_takeFired : (s.takeFired i).monitor = s.monitor := by
  unfold State.takeFired
  split
  · rfl
  · simp

theorem State.monitor_placeResult (r : ScanResult) : (s.placeResult r).monitor = s.monitor := by
  unfold State.placeResult
  split
  · split
    · simp
    · rfl
  · exact State.monitor_storeResult _ _ _
  · simp

theorem State.monitor_takeLineEvent : (s.takeLineEvent i).monitor = s.monitor := by
  unfold State.takeLineEvent State.judgeLineEvent State.conditionTrue
  dsimp only
  repeat' split
  all_goals simp

theorem State.monitor_takeCancel (h : HeldOrder) : (s.takeCancel h).monitor = s.monitor := by
  unfold State.takeCancel; split <;> simp

theorem State.monitor_takeFence (h : HeldOrder) : (s.takeFence h).monitor = s.monitor :=
  State.monitor_fenceIfEmpty _

theorem State.monitor_poolData (d : Descriptor) :
    (if d.bad then s.poolAnswered.reportBad d.ident
      else s.poolAnswered.cacheDescriptor d).monitor = s.monitor := by
  split <;> rfl

theorem State.monitor_setOrderTail (value : Nat) :
    (s.setOrderTail value).monitor = s.monitor := by
  unfold State.setOrderTail
  dsimp only
  repeat' split
  all_goals rfl

theorem State.monitor_writeOrderTail (value : BitVec 32) :
    (s.writeOrderTail value).monitor = s.monitor := by
  unfold State.writeOrderTail
  split
  · exact s.monitor_refuseWrite
  · rfl
  · exact s.monitor_setOrderTail _

theorem State.monitor_writePoolTail (value : BitVec 32) :
    (s.writePoolTail value).monitor = s.monitor := by
  unfold State.writePoolTail
  split
  · exact s.monitor_refuseWrite
  · rfl
  · rfl

theorem State.monitor_writeDoneHead (value : BitVec 32) :
    (s.writeDoneHead value).monitor = s.monitor := by
  unfold State.writeDoneHead
  split
  · exact s.monitor_refuseWrite
  · rfl
  · split
    · rfl
    · exact s.monitor_refuseWrite

/-- A write of the window that is no write to CONTROL leaves the lines and the run state alone
(R156). -/
theorem State.monitor_writeWindow (offset : BitVec 6) (width : AccessWidth) (value : BitVec 32)
    (h : offset ≠ offControl ∨ wellShaped offset width = false) :
    (s.writeWindow offset width value).monitor = s.monitor := by
  unfold State.writeWindow
  by_cases hw : wellShaped offset width = true
  · have hc : (offset == offControl) = false := by
      rw [beq_eq_false_iff_ne]; exact h.resolve_right (by simp [hw])
    rw [if_neg (by simp [hw]), if_neg (by simp [hc])]
    split
    · exact s.monitor_withEvents _
    split
    · exact s.monitor_withEvents _
    split
    · rfl
    split
    · rfl
    split
    · exact s.monitor_writeOrderTail value
    split
    · exact s.monitor_writePoolTail value
    split
    · exact s.monitor_writeDoneHead value
    · exact s.monitor_refuseWrite
  · rw [if_pos (by simp [hw])]
    exact s.monitor_refuseWrite

/-! ### What a command answers -/

/-- If the result is a next state, its lines and its run state are those of `s`. -/
def KeepsMonitor (s : State) (r : Result) : Prop := ∀ t, r = .next t → t.monitor = s.monitor

variable {s} {i}

theorem KeepsMonitor.next {t : State} (h : t.monitor = s.monitor) : KeepsMonitor s (.next t) := by
  rintro _ ⟨⟩; exact h

theorem KeepsMonitor.whenever {ready : Bool} {effect : State} (h : effect.monitor = s.monitor) :
    KeepsMonitor s (s.whenever ready effect) :=
  .next (by split; exacts [h, rfl])

theorem keepsMonitor_firingCompletion : KeepsMonitor s (execFiringCompletion i s) := by
  unfold execFiringCompletion
  split
  · exact .next (s.monitor_returnToWatch i)
  · exact .whenever rfl

theorem keepsMonitor_orderDoneTaken : KeepsMonitor s (execOrderDoneTaken i s) :=
  .whenever (State.monitor_fenceIfEmpty _)

theorem keepsMonitor_intervalTimerExpiry : KeepsMonitor s (execIntervalTimerExpiry i s) :=
  .whenever (State.monitor_scanDue _ i)

theorem keepsMonitor_entrySettled : KeepsMonitor s (execEntrySettled s) := by
  unfold execEntrySettled; split <;> exact .next rfl

theorem keepsMonitor_conversionDone (nanovolts : Int) :
    KeepsMonitor s (execConversionDone nanovolts s) := by
  unfold execConversionDone
  split
  · exact .next rfl
  · exact .next (by split <;> rfl)

theorem keepsMonitor_poolReadIssue : KeepsMonitor s (execPoolReadIssue s) := .whenever rfl

theorem keepsMonitor_resultTaken : KeepsMonitor s (execResultTaken s) := by
  unfold execResultTaken
  split
  · exact .next rfl
  · exact .next (s.monitor_placeResult _)

theorem keepsMonitor_pageCloseRequest : KeepsMonitor s (execPageCloseRequest i s) := by
  unfold execPageCloseRequest
  split
  · exact .next rfl
  · exact .whenever rfl

theorem keepsMonitor_flushExpiry : KeepsMonitor s (execFlushExpiry i s) := by
  unfold execFlushExpiry; split <;> exact .next rfl

theorem keepsMonitor_pageClose : KeepsMonitor s (execPageClose i s) := by
  unfold execPageClose
  split
  · exact .next rfl
  · exact .next (s.monitor_closePage i _)

theorem keepsMonitor_unusedReturn : KeepsMonitor s (execUnusedReturn s) := by
  unfold execUnusedReturn
  split
  · exact .next rfl
  · exact .whenever rfl

theorem keepsMonitor_orderReadIssue : KeepsMonitor s (execOrderReadIssue s) := .whenever rfl

theorem keepsMonitor_orderReadData (tag : Nat) (data : BitVec 512) :
    KeepsMonitor s (execOrderReadData tag data s) := by
  unfold execOrderReadData
  split
  · exact .next rfl
  · split
    · exact .next (by split <;> rfl)
    · exact .next rfl

theorem keepsMonitor_cancel : KeepsMonitor s (execCancel s) := by
  unfold execCancel
  split
  · exact .next rfl
  · exact .next (s.monitor_takeCancel _)

theorem keepsMonitor_fence : KeepsMonitor s (execFence s) := by
  unfold execFence
  split
  · exact .next rfl
  · exact .next (s.monitor_takeFence _)

theorem keepsMonitor_badOrder : KeepsMonitor s (execBadOrder s) := by
  unfold execBadOrder; split <;> exact .next rfl

theorem keepsMonitor_fenceDoneTaken : KeepsMonitor s (execFenceDoneTaken s) := by
  unfold execFenceDoneTaken; split <;> exact .next rfl

theorem keepsMonitor_armExpiry : KeepsMonitor s (execArmExpiry i s) :=
  .whenever (by split <;> simp)

end Sys2Proof.Machine
end

/-! ## The lines stay settled (R2 to R5, R11 to R14) -/

section
namespace Sys2Proof.Machine

/-! ### One line -/

variable (l : Line)

theorem Line.settled_of_steady (hq : l.qualifying = none) (h : l.raw = l.level) : l.Settled := by
  simp only [Line.Settled, hq]; exact h

theorem Line.settled_of_qualifying {n : Nat} (hq : l.qualifying = some n) (hr : l.raw ≠ l.level)
    (hd : l.debounce ≠ 0) (hn : n ≤ l.debounce.toNat) : l.Settled := by
  simp only [Line.Settled, hq]; exact ⟨hr, hd, hn⟩

theorem Line.Settled.eq_of_steady {l : Line} (h : l.Settled) (hq : l.qualifying = none) :
    l.raw = l.level := by
  simpa only [Line.Settled, hq] using h

theorem Line.Settled.of_qualifying {l : Line} {n : Nat} (h : l.Settled)
    (hq : l.qualifying = some n) :
    l.raw ≠ l.level ∧ l.debounce ≠ 0 ∧ n ≤ l.debounce.toNat := by
  simpa only [Line.Settled, hq] using h

/-- A change of the raw level leaves a settled line settled (R2, R3, R5). -/
theorem Line.Settled.rawChange {l : Line} (h : l.Settled) (level : Bool) (hne : l.raw ≠ level) :
    (l.rawChange level).Settled := by
  unfold Line.rawChange
  split
  · exact Line.settled_of_steady _ rfl rfl
  next hd =>
    cases hq : l.qualifying with
    | some n =>
      obtain ⟨hraw, -, -⟩ := h.of_qualifying hq
      refine Line.settled_of_steady _ rfl ?_
      show level = l.level
      revert hne hraw
      cases level <;> cases l.raw <;> cases l.level <;> simp
    | none =>
      by_cases hl : level = l.level
      · exact Line.settled_of_steady _ (by simp [hl]) hl
      · exact Line.settled_of_qualifying _ (n := 0) (by simp [hl]) hl (by simpa using hd)
          (Nat.zero_le _)

theorem Line.qualify_settled : l.qualify.Settled := Line.settled_of_steady _ rfl rfl

/-- A new debounce time leaves a settled line settled (R11, Table 1-3). -/
theorem Line.Settled.retime {l : Line} (h : l.Settled) (time : Byte) : (l.retime time).Settled := by
  unfold Line.retime
  split
  next hq =>
    have hq : l.qualifying = none := by simpa using hq
    exact Line.settled_of_steady _ hq (h.eq_of_steady hq)
  next hq =>
    obtain ⟨n, hn⟩ := Option.ne_none_iff_exists'.1 (by simpa using hq)
    obtain ⟨hraw, -, -⟩ := h.of_qualifying hn
    split
    · exact Line.settled_of_steady _ rfl rfl
    next ht => exact Line.settled_of_qualifying _ rfl hraw (by simpa using ht) (Nat.zero_le _)

/-- A line that resumes is settled, whatever it was when it froze (R13). -/
theorem Line.resume_settled : l.resume.Settled := by
  unfold Line.resume
  split
  next hr => exact Line.settled_of_steady _ rfl (by simpa using hr)
  next hr =>
    split
    · exact Line.settled_of_steady _ rfl rfl
    next hd =>
      exact Line.settled_of_qualifying _ rfl (by simpa using hr) (by simpa using hd)
        (Nat.zero_le _)

theorem Line.restart_settled : l.restart.Settled := Line.settled_of_steady _ rfl rfl

/-- A microsecond leaves a line settled whose qualification has not yet succeeded (R2, R4). -/
theorem Line.Settled.tick {l : Line} (h : l.Settled) (hn : l.qualified = false) :
    l.tick.Settled := by
  cases hq : l.qualifying with
  | none => exact Line.settled_of_steady _ (by simp [Line.tick, tickTimer, hq]) (h.eq_of_steady hq)
  | some n =>
    obtain ⟨hraw, hd, -⟩ := h.of_qualifying hq
    refine Line.settled_of_qualifying l.tick (n := n + 1) (by simp [Line.tick, tickTimer, hq]) hraw
      hd ?_
    have : ¬ l.debounce.toNat ≤ n := by
      simpa [Line.qualified, hq, timerReached, hraw] using hn
    show n + 1 ≤ l.debounce.toNat
    omega

/-! ### All lines -/

section
variable {s t : State}

/-- The invariant speaks of the lines, and of the run state only whether it is FAULTED. -/
theorem LinesSettled.of_lines (h : LinesSettled s) (hl : t.lines.lines = s.lines.lines)
    (hf : t.run.runState = .faulted ↔ s.run.runState = .faulted) : LinesSettled t := by
  unfold LinesSettled
  rw [hl, Ne, hf]
  exact h

theorem LinesSettled.of_monitor (h : LinesSettled s) (hm : t.monitor = s.monitor) :
    LinesSettled t := by
  obtain ⟨hl, hr⟩ := Prod.ext_iff.1 hm
  exact h.of_lines (congrArg LineMonitor.lines hl) (iff_of_eq (congrArg (· = RunState.faulted) hr))

/-- A transition between two run states other than FAULTED that leaves the lines alone. -/
theorem LinesSettled.of_live (h : LinesSettled s) (hl : t.lines.lines = s.lines.lines)
    (hs : s.run.runState ≠ .faulted) (ht : t.run.runState ≠ .faulted) : LinesSettled t :=
  h.of_lines hl (iff_of_false ht hs)

theorem LinesSettled.settled (h : LinesSettled s) (hs : s.run.runState ≠ .faulted) (l : Fin 16) :
    s.lines.lines[l].Settled :=
  (h l).1 hs

theorem linesSettled_of_settled (ht : t.run.runState ≠ .faulted)
    (h : ∀ l : Fin 16, t.lines.lines[l].Settled) : LinesSettled t :=
  fun l => ⟨fun _ => h l, fun hf => absurd hf ht⟩

theorem linesSettled_of_frozen (ht : t.run.runState = .faulted)
    (h : ∀ l : Fin 16, t.lines.lines[l].qualifying = none) : LinesSettled t :=
  fun l => ⟨fun hf => absurd ht hf, fun _ => h l⟩

end

section
variable (s : State)

theorem State.commitLines_lines (v : Vector Line 16) (sameMoment : Bool) :
    (s.commitLines v sameMoment).lines.lines = v :=
  (s.commitLines_linesBecome v sameMoment).1

theorem State.commitLines_run (v : Vector Line 16) (sameMoment : Bool) :
    (s.commitLines v sameMoment).run = s.run := by
  obtain ⟨-, h, -⟩ := s.commitLines_linesBecome v sameMoment
  rw [h]

/-- Committing settled lines outside FAULTED leaves the lines settled. -/
theorem State.commitLines_settled (v : Vector Line 16) (sameMoment : Bool)
    (hs : s.run.runState ≠ .faulted) (h : ∀ l : Fin 16, v[l].Settled) :
    LinesSettled (s.commitLines v sameMoment) :=
  linesSettled_of_settled (by rwa [State.commitLines_run]) (by rwa [State.commitLines_lines])

/-- Lines of which one is replaced by a settled one. -/
theorem settled_set {v : Vector Line 16} (h : ∀ l : Fin 16, v[l].Settled) (k : Fin 16) {x : Line}
    (hx : x.Settled) (l : Fin 16) : (v.set k x)[l].Settled := by
  by_cases e : k.val = l.val
  · simpa [Vector.getElem_set, e] using hx
  · simpa [Vector.getElem_set, e] using h l

variable {s}

theorem LinesSettled.retimeLines (h : LinesSettled s) (hs : s.run.runState ≠ .faulted)
    (mask : LineWord) (times : Fin 16 → Byte) : LinesSettled (s.retimeLines mask times) := by
  refine s.commitLines_settled _ _ hs fun l => ?_
  simp only [Fin.getElem_fin, Vector.getElem_ofFn]
  split
  · exact (h.settled hs l).retime _
  · exact h.settled hs l

theorem resumeLines_settled (hs : s.run.runState ≠ .faulted) : LinesSettled s.resumeLines :=
  State.commitLines_settled _ _ _ hs fun l => by simpa using Line.resume_settled _

theorem enterFaulted_settled (code : FaultCode) : LinesSettled (s.enterFaulted code) := by
  obtain ⟨hl, -, ht⟩ := s.enterFaulted_entersFaulted code
  exact linesSettled_of_frozen (by rw [ht]) fun l => by rw [hl l]

theorem LinesSettled.endStart (h : LinesSettled s) (hs : s.run.runState ≠ .faulted)
    (result : SetupResult) : LinesSettled (s.endStart result) := by
  rw [State.endStart_startEnded]
  exact h.of_live rfl hs (by simp [State.startEnded, State.flagged, State.eventsBecome])

theorem LinesSettled.beginStart (h : LinesSettled s) (hs : s.run.runState ≠ .faulted) :
    LinesSettled s.beginStart := by
  unfold State.beginStart
  dsimp only
  split
  · refine LinesSettled.endStart ?_ (by simp) _
    exact h.of_live rfl hs (by simp)
  · exact h.of_live rfl hs (by simp [State.useTag])

theorem State.monitor_foldl {f : State → Fin 32 → State}
    (hf : ∀ s i, (f s i).monitor = s.monitor) (is : List (Fin 32)) (s : State) : (is.foldl f s).monitor = s.monitor := by
  induction is generalizing s with
  | nil => rfl
  | cons i is ih => rw [List.foldl_cons, ih, hf]

theorem State.monitor_haltSlot (lossFirst : BitVec 32) (s : State) (i : Fin 32) :
    (s.haltSlot lossFirst i).monitor = s.monitor := by
  unfold State.haltSlot
  dsimp only
  split
  · exact s.monitor_closeSlot i _ _
  · rfl

theorem LinesSettled.beginStop (h : LinesSettled s) (hs : s.run.runState ≠ .faulted)
    (lossFirst : BitVec 32) : LinesSettled (s.beginStop lossFirst) := by
  have hu := State.monitor_foldl (fun s i => s.monitor_completeFiring i) slotNumbers s
  unfold State.beginStop
  generalize slotNumbers.foldl State.completeFiring s = u at hu ⊢
  have hr : u.run.runState = s.run.runState := congrArg Prod.snd hu
  refine LinesSettled.of_monitor ?_
    (State.monitor_foldl (State.monitor_haltSlot lossFirst) slotNumbers _)
  exact (h.of_monitor hu).of_live rfl (by rwa [hr]) (by simp [State.settleFence])

theorem LinesSettled.resetByHost (h : LinesSettled s) : LinesSettled s.resetByHost := by
  unfold State.resetByHost
  split
  · exact resumeLines_settled (by simp [State.resetBlocks])
  next hf => exact h.of_live rfl (by simpa using hf) (by simp [State.resetBlocks])

theorem resetByPower_settled : LinesSettled s.resetByPower := by
  refine State.commitLines_settled _ _ _ (by simp [State.resetBlocks]) fun l => ?_
  simpa using Line.restart_settled _

theorem LinesSettled.writeRun1 (h : LinesSettled s) : LinesSettled s.writeRun1 := by
  unfold State.writeRun1
  split
  next hr => exact h.beginStart (by simp [hr])
  · exact h
  · exact h
  · exact h
  · exact h.of_monitor s.monitor_refuseWrite

theorem LinesSettled.writeRun0 (h : LinesSettled s) (lossFirst : BitVec 32) :
    LinesSettled (s.writeRun0 lossFirst) := by
  unfold State.writeRun0
  split
  · exact h
  · exact h
  next hr => exact h.beginStop (by simp [hr]) lossFirst
  · exact h.of_monitor s.monitor_refuseWrite
  · exact resumeLines_settled (by simp)

theorem LinesSettled.writeWindow (h : LinesSettled s) (offset : BitVec 6) (width : AccessWidth)
    (value : BitVec 32) : LinesSettled (s.writeWindow offset width value) := by
  by_cases hc : offset = offControl ∧ wellShaped offset width = true
  · obtain ⟨rfl, hw⟩ := hc
    have : s.writeWindow offControl width value = s.writeControl value := by
      simp [State.writeWindow, hw]
    rw [this]
    unfold State.writeControl
    split
    · exact h.resetByHost
    · split
      · exact h.writeRun1
      · exact h.writeRun0 0
  · rw [not_and_or, Bool.not_eq_true] at hc
    exact h.of_monitor (s.monitor_writeWindow offset width value hc)

theorem LinesSettled.setupData (h : LinesSettled s) (hs : s.run.runState ≠ .faulted)
    (c : SetupCopy) : LinesSettled (s.setupData c) := by
  unfold State.setupData
  split
  · exact h.endStart hs _
  · split
    · refine LinesSettled.retimeLines ?_ (by simp) _ _
      exact h.of_live rfl hs (by simp)
    · exact h.endStart hs _

theorem LinesSettled.stopComplete (h : LinesSettled s) (hs : s.run.runState ≠ .faulted) :
    LinesSettled ({ s with run.runState := .stopped, link.undelivered := [] }.flushModeration.setFlag
      .stopped) := by
  have hstop : LinesSettled { s with run.runState := .stopped, link.undelivered := [] } :=
    h.of_live rfl hs (by simp)
  exact hstop.of_monitor (by simp)

end

/-! ### Every command, and a microsecond -/

/-- If the result is a next state, its lines are settled. -/
def Settles (r : Result) : Prop := ∀ t, r = .next t → LinesSettled t

section
variable {s : State}

theorem Settles.next {t : State} (h : LinesSettled t) : Settles (.next t) := by
  rintro _ ⟨⟩; exact h

theorem Settles.whenever (h : LinesSettled s) {ready : Bool} {effect : State}
    (he : ready = true → LinesSettled effect) : Settles (s.whenever ready effect) := by
  refine .next ?_
  split
  next hr => exact he hr
  · exact h

theorem KeepsMonitor.settles {r : Result} (hr : KeepsMonitor s r) (h : LinesSettled s) : Settles r :=
  fun t ht => h.of_monitor (hr t ht)

theorem State.not_faulted_of_setupReading {p : BusRead → Bool} (h : s.setupReading p = true) :
    s.run.runState ≠ .faulted := by
  unfold State.setupReading at h
  rw [Bool.and_eq_true, beq_iff_eq] at h
  rw [h.1]; decide

/-- An order is taken in RUNNING alone. -/
theorem State.not_faulted_of_takeable {p : HeldOrder → Bool} {o : HeldOrder}
    (h : s.takeable p = some o) : s.run.runState ≠ .faulted := by
  unfold State.takeable at h
  split at h
  next hm =>
    obtain ⟨hr, -, -⟩ := s.mayTake_iff.1 ((Bool.and_eq_true _ _).mp hm).1
    rw [hr]; decide
  · cases h

theorem rawLevelChange_settles (h : LinesSettled s) (k : Fin 16) (level sameMoment : Bool) :
    Settles (execRawLevelChange k level sameMoment s) := by
  unfold execRawLevelChange
  dsimp only
  split
  · exact .next h
  next hne =>
    split
    next hf =>
      have hf : s.run.runState = .faulted := by simpa using hf
      refine .next (linesSettled_of_frozen hf fun l => ?_)
      have hq : ∀ l : Fin 16, s.lines.lines[l].qualifying = none := fun l => (h l).2 hf
      by_cases e : k.val = l.val
      · simpa [Vector.getElem_set, e] using hq l
      · simpa [Vector.getElem_set, e] using hq l
    next hf =>
      have hf : s.run.runState ≠ .faulted := by simpa using hf
      exact .next (s.commitLines_settled _ _ hf
        (settled_set (h.settled hf) k ((h.settled hf k).rawChange level (by simpa using hne))))

theorem qualificationTimerExpiry_settles (h : LinesSettled s) (k : Fin 16) (sameMoment : Bool) :
    Settles (execQualificationTimerExpiry k sameMoment s) := by
  refine .whenever h fun hc => ?_
  have hf : s.run.runState ≠ .faulted := bne_iff_ne.1 ((Bool.and_eq_true _ _).mp hc).1
  exact s.commitLines_settled _ _ hf (settled_set (h.settled hf) k (Line.qualify_settled _))

theorem lines_settles (h : LinesSettled s) : Settles (execLines s) := by
  unfold execLines
  split
  · exact .next h
  next o ho =>
    have ha : LinesSettled (s.takeAndAnswer o .ok) := h.of_monitor (s.monitor_takeAndAnswer o .ok)
    exact .next (ha.retimeLines (State.not_faulted_of_takeable (s := s) ho) _ _)

theorem completionTimeout_settles (h : LinesSettled s) (tag : Nat) :
    Settles (execCompletionTimeout tag s) := by
  unfold execCompletionTimeout
  split
  next hr => exact .next (h.endStart (State.not_faulted_of_setupReading hr) _)
  · split
    · exact .next (enterFaulted_settled _)
    · exact .whenever h fun _ => enterFaulted_settled _

/-- Every command leaves the lines settled. -/
theorem exec_settles (c : Instr) (h : LinesSettled s) : Settles (exec c s) := by
  cases c with
  | rawLevelChange k level sameMoment => exact rawLevelChange_settles h k level sameMoment
  | qualificationTimerExpiry k sameMoment => exact qualificationTimerExpiry_settles h k sameMoment
  | lineEventTaken i => exact (KeepsMonitor.whenever (s.monitor_takeLineEvent i)).settles h
  | holdExpiry i => exact (KeepsMonitor.whenever (s.monitor_fire i _ _ _)).settles h
  | armExpiry i => exact keepsMonitor_armExpiry.settles h
  | delayExpiry i => exact (KeepsMonitor.whenever (s.monitor_fire i _ _ _)).settles h
  | gateOpening i => exact (KeepsMonitor.whenever (s.monitor_enterWatch i _)).settles h
  | gateLoss i => exact (KeepsMonitor.whenever (s.monitor_closeSlot i _ _)).settles h
  | firedRecordTaken i => exact (KeepsMonitor.whenever (s.monitor_takeFired i)).settles h
  | firingCompletion i => exact keepsMonitor_firingCompletion.settles h
  | orderDoneTaken i => exact keepsMonitor_orderDoneTaken.settles h
  | intervalTimerExpiry i => exact keepsMonitor_intervalTimerExpiry.settles h
  | grant => exact (KeepsMonitor.whenever s.monitor_grantHead).settles h
  | entrySettled => exact keepsMonitor_entrySettled.settles h
  | conversionDone nanovolts => exact (keepsMonitor_conversionDone nanovolts).settles h
  | poolReadIssue => exact keepsMonitor_poolReadIssue.settles h
  | poolReadData tag data => exact (KeepsMonitor.whenever (s.monitor_poolData _)).settles h
  | resultTaken => exact keepsMonitor_resultTaken.settles h
  | pageCloseRequest i => exact keepsMonitor_pageCloseRequest.settles h
  | flushExpiry i => exact keepsMonitor_flushExpiry.settles h
  | pageClose i => exact keepsMonitor_pageClose.settles h
  | unusedReturn => exact keepsMonitor_unusedReturn.settles h
  | noticeTaken => exact (KeepsMonitor.whenever s.monitor_takeNotice).settles h
  | recordWrite => exact (KeepsMonitor.whenever s.monitor_writeRecord).settles h
  | moderationTimerExpiry => exact (KeepsMonitor.whenever s.monitor_signalDone).settles h
  | orderReadIssue => exact keepsMonitor_orderReadIssue.settles h
  | orderReadData tag data => exact (keepsMonitor_orderReadData tag data).settles h
  | arm => exact (KeepsMonitor.whenever s.monitor_takeSlotOrder).settles h
  | sample => exact (KeepsMonitor.whenever s.monitor_takeSlotOrder).settles h
  | cancel => exact keepsMonitor_cancel.settles h
  | lines => exact lines_settles h
  | fence => exact keepsMonitor_fence.settles h
  | badOrder => exact keepsMonitor_badOrder.settles h
  | fenceLimitExpiry => exact (KeepsMonitor.whenever (s.monitor_settleFence _)).settles h
  | fenceDoneTaken => exact keepsMonitor_fenceDoneTaken.settles h
  | runWritten1 => exact .next h.writeRun1
  | runWritten0 lossFirst => exact .next (h.writeRun0 lossFirst)
  | hostReset => exact .next h.resetByHost
  | eventsWrite width value => exact .next (h.writeWindow offEvents width value)
  | eventMaskWrite width value => exact .next (h.writeWindow offEventMask width value)
  | orderTailWrite value => exact (KeepsMonitor.next (s.monitor_writeOrderTail value)).settles h
  | poolTailWrite value => exact (KeepsMonitor.next (s.monitor_writePoolTail value)).settles h
  | doneHeadWrite value => exact (KeepsMonitor.next (s.monitor_writeDoneHead value)).settles h
  | registerWrite offset width value => exact .next (h.writeWindow offset width value)
  | setupReadData tag data =>
    exact .whenever h fun hr => h.setupData (State.not_faulted_of_setupReading hr) _
  | setupReadError tag =>
    exact .whenever h fun hr => h.endStart (State.not_faulted_of_setupReading hr) _
  | stopComplete =>
    refine .whenever h fun hc => h.stopComplete ?_
    rw [eq_of_beq ((Bool.and_eq_true _ _).mp hc).1]; decide
  | fetchError tag => exact .whenever h fun _ => enterFaulted_settled _
  | poolError tag => exact .whenever h fun _ => enterFaulted_settled _
  | pageError => exact .whenever h fun _ => enterFaulted_settled _
  | postError => exact .whenever h fun _ => enterFaulted_settled _
  | completionTimeout tag => exact completionTimeout_settles h tag
  | linkDown => exact .whenever h fun _ => enterFaulted_settled _
  | powerOnReset => exact .next resetByPower_settled
  | linkReset => exact .next resetByPower_settled
  | configurationSpaceWrite busMaster msi => exact (KeepsMonitor.next rfl).settles h

/-! ### Time -/

/-- While no event is due no qualification has reached its debounce time. -/
theorem State.not_qualified_of_not_due (hd : ¬ s.eventDue = true) (hf : s.run.runState ≠ .faulted)
    (l : Fin 16) : s.lines.lines[l].qualified = false := by
  rw [← Bool.not_eq_true]
  intro hq
  obtain ⟨hr, hl⟩ : timerReached s.lines.lines[l].qualifying s.lines.lines[l].debounce.toNat = true
      ∧ s.lines.lines[l].raw ≠ s.lines.lines[l].level := by simpa [Line.qualified] using hq
  exact hd (s.eventDue_iff.2 (Or.inl ⟨l, hf, hl, (timerReached_iff _ _).1 hr⟩))

/-- In every run state but FAULTED the lines are those of `tickLines` after a microsecond. -/
theorem State.monitor_tick (hf : s.run.runState ≠ .faulted) :
    s.tick.monitor = s.tickLines.monitor := by
  unfold State.tick
  split
  · rfl
  · rfl
  · rfl
  · rfl
  next h => exact absurd h hf

theorem tick_settled (h : LinesSettled s) (hd : ¬ s.eventDue = true) : LinesSettled s.tick := by
  by_cases hf : s.run.runState = .faulted
  · have : s.tick = { s with lines.latest := none } := by unfold State.tick; rw [hf]
    rw [this]
    exact h
  · refine LinesSettled.of_monitor (s := s.tickLines) ?_ (State.monitor_tick hf)
    refine linesSettled_of_settled hf fun l => ?_
    simpa [State.tickLines] using
      (h.settled hf l).tick (State.not_qualified_of_not_due hd hf l)

theorem idle_settles (h : LinesSettled s) : Settles (idle s) := by
  refine .next ?_
  split
  · exact h
  next hd => exact tick_settled h hd

end

/-- Settles O55: every command and every microsecond leave each line settled, and in FAULTED none
qualifies. -/
theorem everyStepKeepsLinesSettled : Obligations.EveryStepKeepsLinesSettled := by
  intro s t h
  unfold step
  split
  · exact idle_settles h t
  next c rest _ => exact exec_settles c (s := s.withPending rest) h t

end Sys2Proof.Machine
end

/-! ## One microsecond (O2) -/

section
namespace Sys2Proof.Machine

variable (s : State) (i : Fin 32)

/-! ### What a microsecond does to each block -/

theorem OpenPage.tick_eq (limit : Nat) (moment : Moment) (p : OpenPage) :
    p.tick limit moment =
      if p.expired ≠ none then p
      else { p with
             age := p.age.map (· + 1)
             expired := p.age.bind fun a =>
               if limit ≤ a + 1 then some { arose := moment, held := false } else none } := by
  unfold OpenPage.tick
  simp only [Option.isSome_iff_ne_none]
  congr 2
  cases p.age <;> simp [timerReached, tickTimer, WorkItem.fresh]

theorem State.tickLines_line (l : Fin 16) :
    s.tickLines.lines.lines[l] =
      { s.lines.lines[l] with qualifying := s.lines.lines[l].qualifying.map (· + 1) } := by
  simp [State.tickLines, Line.tick, tickTimer]

/-- The moment advances by one, through a wrap of the counter too (R144). -/
theorem RunControl.tick_moment (r : RunControl) :
    r.tick.epoch * 2 ^ 48 + r.tick.timestamp.toNat
      = r.epoch * 2 ^ 48 + r.timestamp.toNat + 1 := by
  have hlt := r.timestamp.isLt
  have hadd : (r.timestamp + 1).toNat = (r.timestamp.toNat + 1) % 2 ^ 48 := by
    rw [BitVec.toNat_add]; rfl
  simp only [RunControl.tick, beq_iff_eq, ← toNat_eq_zero, hadd]
  split <;> omega

theorem State.tickBlocks_moment : s.tickBlocks.moment = s.moment + 1 := s.run.tick_moment

theorem State.tickBlocks_slot :
    s.tickBlocks.slot i =
      (s.slot i).tick (s.run.copy.flushInterval.toNat * 1000) s.tickBlocks.moment :=
  State.slot_mapSlots _ i _

theorem State.tick_of_faulted (h : s.run.runState = .faulted) :
    s.tick = { s with lines.latest := none } := by
  unfold State.tick; rw [h]

theorem State.tick_of_stopped (h : s.run.runState = .stopped) : s.tick = s.tickLines := by
  unfold State.tick; rw [h]

theorem State.tick_of_starting (h : s.run.runState = .starting) :
    s.tick = { s.tickLines with run.setupRead := s.run.setupRead.map BusRead.tick } := by
  unfold State.tick; rw [h]

theorem State.tick_of_live (h : s.Live) : s.tick = s.tickLines.tickBlocks := by
  unfold State.tick; rcases h with h | h <;> rw [h]

theorem State.tick_lines (h : s.run.runState ≠ .faulted) : s.tick.lines = s.tickLines.lines :=
  congrArg Prod.fst (s.monitor_tick h)

/-- What a microsecond leaves while the blocks run (Table 8-3), but for the lines and the slots. -/
theorem State.tick_frame_of_live (h : s.Live) :
    s.tick = { s with
      run.timestamp := s.run.timestamp + 1
      run.epoch := s.tick.run.epoch
      lines := s.tick.lines
      slots := s.tick.slots
      fetch.read := s.fetch.read.map fun r => { r with read.elapsed := r.read.elapsed + 1 }
      fetch.fence := s.fetch.fence.map fun f => { f with timer := f.timer.map (· + 1) }
      sched.conversion := s.sched.conversion.map fun c =>
        { c with phase := match c.phase with
          | .settling n => .settling (n + 1)
          | .converting n => .converting (n + 1) }
      pages.poolRead := s.pages.poolRead.map fun r => { r with elapsed := r.elapsed + 1 }
      post.timer := s.post.timer.map (· + 1) } := by
  rw [s.tick_of_live h]; rfl

/-- The slots after a microsecond while the blocks run. -/
theorem State.tick_slot_of_live (h : s.Live) :
    s.tick.slot i =
      { s.slot i with
        holdTimer := (s.slot i).holdTimer.map (· + 1)
        armTimer := (s.slot i).armTimer.map (· + 1)
        delayTimer := (s.slot i).delayTimer.map (· + 1)
        intervalTimer := (s.slot i).intervalTimer.map (· + 1)
        openPage := (s.slot i).openPage.map
          (OpenPage.tick (s.run.copy.flushInterval.toNat * 1000) s.tick.moment) } := by
  rw [s.tick_of_live h, State.tickBlocks_slot]; rfl

/-- Settles O2, by the run state: `State.eventDue_iff` says when time is held back, and `State.tick`
what passes otherwise. -/
theorem microsecondPassesWhenNothingIsDue : Obligations.MicrosecondPassesWhenNothingIsDue := by
  intro s hp
  have hstep : step s = .next (if s.eventDue then s else s.tick) := by unfold step; rw [hp]; rfl
  rw [hstep]
  refine ⟨fun hd => by rw [if_pos (s.eventDue_iff.2 hd)], fun hd => ⟨s.tick, ?_, ?_, ?_, ?_, ?_, ?_⟩⟩
  · rw [if_neg (mt s.eventDue_iff.1 hd)]
  · exact s.tick_of_faulted
  · intro hf
    rw [s.tick_lines hf]
    exact ⟨rfl, s.tickLines_line⟩
  · intro hr; rw [s.tick_of_stopped hr]; rfl
  · intro hr; rw [s.tick_of_starting hr]; rfl
  · intro hl
    refine ⟨?_, fun j => ⟨?_, ?_⟩, s.tick_frame_of_live hl⟩
    · rw [s.tick_of_live hl]; exact s.tickLines.tickBlocks_moment
    · rw [s.tick_slot_of_live j hl]
    · rw [s.tick_slot_of_live j hl]
      exact congrArg (Option.map · (s.slot j).openPage) (funext (OpenPage.tick_eq _ _))

end Sys2Proof.Machine
end

/-! ## Changes of the lines (O4, O5, O34) -/

section
namespace Sys2Proof.Machine

variable (s : State) (k : Fin 16)

/-! ### The line word under a change of one line -/

theorem lineWord_ext {w : LineWord} {v : Vector Line 16}
    (h : ∀ l : Fin 16, w.getLsbD l = v[l].level) : w = lineWord v := by
  refine BitVec.eq_of_getLsbD_eq fun l hl => ?_
  rw [h ⟨l, hl⟩, getLsbD_lineWord v ⟨l, hl⟩]

/-- A line that keeps its debounced level keeps the word (R6). -/
theorem lineWord_set_of_level_eq (v : Vector Line 16) (x : Line) (h : x.level = v[k].level) :
    lineWord (v.set k x) = lineWord v := by
  refine lineWord_ext fun l => ?_
  rw [getLsbD_lineWord]
  by_cases e : k.val = l.val
  · simpa [e] using h
  · simp [e]

/-- A line whose debounced level changes flips its own bit of the word (R4, R6). -/
theorem lineWord_set_of_level_ne (v : Vector Line 16) (x : Line) (h : x.level ≠ v[k].level) :
    lineWord (v.set k x) = lineWord v ^^^ BitVec.twoPow 16 k := by
  refine (lineWord_ext fun l => ?_).symm
  rw [BitVec.getLsbD_xor, getLsbD_lineWord, BitVec.getLsbD_twoPow]
  by_cases e : k.val = l.val
  · have : x.level = !v[k].level := Bool.eq_not.2 h
    simp [e, this]
  · simp [e]

/-- One line changed without a change of its debounced level: no line event is made (R6). -/
theorem State.commitLines_set_of_level_eq (x : Line) (sameMoment : Bool)
    (h : x.level = s.lines.lines[k].level) :
    s.commitLines (s.lines.lines.set k x) sameMoment = s.setLine k x := by
  have hw : lineWord (s.lines.lines.set k x) = s.word := lineWord_set_of_level_eq k _ x h
  unfold State.commitLines
  simp only [hw, BitVec.xor_self]
  rfl

theorem LinesBecome.word_eq {s t : State} {v : Vector Line 16} {sameMoment : Bool}
    (h : LinesBecome s t v sameMoment) : t.word = lineWord v := by
  unfold State.word; rw [h.1]

/-! ### The raw level (R1 to R5) -/

theorem exec_rawLevelChange_same (level sameMoment : Bool) (h : level = s.lines.lines[k].raw) :
    exec (.rawLevelChange k level sameMoment) s = .next s := by
  show execRawLevelChange k level sameMoment s = _
  unfold execRawLevelChange
  rw [if_pos (by simp [h])]

theorem exec_rawLevelChange_faulted (level sameMoment : Bool) (h : level ≠ s.lines.lines[k].raw)
    (hf : s.run.runState = .faulted) :
    exec (.rawLevelChange k level sameMoment) s =
      .next (s.setLine k { s.lines.lines[k] with raw := level }) := by
  show execRawLevelChange k level sameMoment s = _
  unfold execRawLevelChange
  rw [if_neg (by simpa using h.symm), if_pos (by simp [hf])]
  rfl

theorem exec_rawLevelChange_acts (level sameMoment : Bool) (h : level ≠ s.lines.lines[k].raw)
    (hf : s.run.runState ≠ .faulted) :
    exec (.rawLevelChange k level sameMoment) s =
      .next (s.commitLines (s.lines.lines.set k (s.lines.lines[k].rawChange level)) sameMoment) := by
  show execRawLevelChange k level sameMoment s = _
  unfold execRawLevelChange
  rw [if_neg (by simpa using h.symm), if_neg (by simpa using hf)]

theorem Line.rawChange_departs (l : Line) (level : Bool) (hd : l.debounce ≠ 0)
    (hq : l.qualifying = none) (hl : level ≠ l.level) :
    l.rawChange level = { l with raw := level, qualifying := some 0 } := by
  rw [Line.rawChange, if_neg (by simpa using hd), hq]
  simp [hl]

theorem Line.rawChange_returns (l : Line) (level : Bool) (hd : l.debounce ≠ 0)
    (hq : l.qualifying ≠ none) :
    l.rawChange level = { l with raw := level, qualifying := none } := by
  rw [Line.rawChange, if_neg (by simpa using hd), if_pos (Option.isSome_iff_ne_none.2 hq)]

theorem Line.rawChange_follows (l : Line) (level : Bool) (hd : l.debounce = 0) :
    l.rawChange level = { l with raw := level, qualifying := none, level := level } := by
  simp [Line.rawChange, hd]

/-- Settles O4, by the debounce time and the state of the line. -/
theorem rawLevelChangeDepartsReturnsOrFollows :
    Obligations.RawLevelChangeDepartsReturnsOrFollows := by
  intro s k level sameMoment x after
  refine ⟨exec_rawLevelChange_same s k level sameMoment,
    exec_rawLevelChange_faulted s k level sameMoment, fun h hf hd => ⟨fun hq hl => ?departs,
      fun hq hl => ?returns⟩, fun h hf hd => ?follows⟩
  case departs =>
    refine (exec_rawLevelChange_acts s k level sameMoment h hf).trans ?_
    rw [Line.rawChange_departs _ level hd hq hl]
    exact congrArg _ (s.commitLines_set_of_level_eq k _ sameMoment rfl)
  case returns =>
    refine (exec_rawLevelChange_acts s k level sameMoment h hf).trans ?_
    rw [Line.rawChange_returns _ level hd hq]
    exact congrArg _ (s.commitLines_set_of_level_eq k _ sameMoment rfl)
  case follows =>
    refine ⟨_, exec_rawLevelChange_acts s k level sameMoment h hf, ?_⟩
    rw [Line.rawChange_follows _ level hd]
    exact s.commitLines_linesBecome _ sameMoment

/-! ### The end of a qualification (R4) -/

/-- Settles O5: the level that changes is the one bit by which the word differs. -/
theorem qualificationSucceeds : Obligations.QualificationSucceeds := by
  intro s k sameMoment n x hf hq hn hr
  have hcan : s.canQualify k = true := by
    have : s.lines.lines[k].qualified = true := by
      simpa [Line.qualified, timerReached_iff] using ⟨⟨n, hq, hn⟩, hr⟩
    exact (Bool.and_eq_true _ _).mpr ⟨bne_iff_ne.2 hf, this⟩
  have hbecome := s.commitLines_linesBecome (s.lines.lines.set k x.qualify) sameMoment
  refine ⟨_, s.whenever_true _ hcan, hbecome, hbecome.word_eq.trans ?_⟩
  exact lineWord_set_of_level_ne k _ _ hr

/-! ### LINES orders (R11, R120) -/

/-- A held order that satisfies `p` is takeable with room in the Post Queue (R115). -/
theorem State.takeable_eq_some {h : HeldOrder} (hm : s.MayTake h) (hr : s.HasRoom)
    {p : HeldOrder → Bool} (hp : p h = true) : s.takeable p = some h := by
  obtain ⟨hrun, hstate, hheld, htail⟩ := hm
  have hmay : s.mayTake = true := s.mayTake_iff.2 ⟨hrun, hstate, htail⟩
  simp [State.takeable, hmay, s.postRoom_iff.2 hr, hheld, Option.filter, hp]

/-- Settles O34, by what a taking and a new debounce time each do. -/
theorem linesSetsDebounceTimes : Obligations.LinesSetsDebounceTimes := by
  intro s h hm hr hd hk
  have htake : s.takeable (HeldOrder.isValid kindLines) = some h :=
    s.takeable_eq_some hm hr ((h.isValid_iff kindLines).2 ⟨hd, hk⟩)
  obtain ⟨v, hv, hlines⟩ := (s.takeAndAnswer h .ok).retimeLines_linesBecome h.image.lineMask
    fun _ => h.image.debounce
  rw [s.takeAndAnswer_answered, hd] at hv
  refine ⟨_, v, ?_, hv, hlines⟩
  show execLines s = _
  unfold execLines
  rw [htake, ← hd]
  rfl

end Sys2Proof.Machine
end

/-! ## Run state transitions that set the lines (O39, O40, O46) -/

section
namespace Sys2Proof.Machine

variable (s : State)

/-! ### RUN written 0 outside RUNNING (Table 8-9) -/

theorem State.writeRun0_of_stopped_or_starting (lossFirst : BitVec 32)
    (h : s.run.runState = .stopped ∨ s.run.runState = .starting) :
    s.writeRun0 lossFirst = { s with window.run := false } := by
  unfold State.writeRun0; rcases h with h | h <;> rw [h]

theorem State.writeRun0_of_stopping (lossFirst : BitVec 32) (h : s.run.runState = .stopping) :
    s.writeRun0 lossFirst = s.flagged 4 := by
  unfold State.writeRun0; rw [h]; exact s.refuseWrite_flagged

theorem State.writeRun0_of_faulted (lossFirst : BitVec 32) (h : s.run.runState = .faulted) :
    s.writeRun0 lossFirst = s.leaveFaulted := by
  unfold State.writeRun0; rw [h]

/-- Settles O39, by the run state: in FAULTED what is kept is discarded and the lines resume. -/
theorem runWrittenZeroLeavesFaulted : Obligations.RunWrittenZeroLeavesFaulted := by
  intro s lossFirst after
  refine ⟨fun h => congrArg Host.Outcome.next (s.writeRun0_of_stopped_or_starting lossFirst h),
    fun h => congrArg Host.Outcome.next (s.writeRun0_of_stopping lossFirst h), fun h => ?_⟩
  obtain ⟨v, hv, hl⟩ := State.resumeLines_linesBecome
    { s.discardRun with run.runState := .stopped, window.run := false }
  exact ⟨_, v, congrArg Host.Outcome.next (s.writeRun0_of_faulted lossFirst h), hl, hv⟩

/-! ### Resets -/

theorem State.resetByHost_of_faulted (h : s.run.runState = .faulted) :
    s.resetByHost = s.resetValues.resumeLines := by
  unfold State.resetByHost; rw [if_pos (by simp [h])]; rfl

theorem State.resetByHost_of_not_faulted (h : s.run.runState ≠ .faulted) :
    s.resetByHost = s.resetValues := by
  unfold State.resetByHost; rw [if_neg (by simpa using h)]; rfl

/-- The lines as a power-on or link reset starts them, before the high inputs are followed (R14). -/
def State.startedLines (s : State) : Vector Line 16 :=
  s.lines.lines.map fun l => { l.restart with level := false }

/-- A power-on or link reset starts the lines afresh from low debounced levels (R155, R14, R5). -/
theorem State.resetByPower_linesBecome :
    LinesBecome
      { s.resetValues with
        lines.lines := s.startedLines
        run.copy := SetupCopy.cleared
        link.busMaster := false
        link.msi := false } s.resetByPower (s.startedLines.map Line.restart) false :=
  State.commitLines_linesBecome _ _ false

/-- Settles O40, by the kind of reset. -/
theorem resetsGiveResetValues : Obligations.ResetsGiveResetValues := by
  refine ⟨fun s h => congrArg Host.Outcome.next (s.resetByHost_of_not_faulted h), fun s h => ?_,
    fun s c hc => ?_⟩
  · obtain ⟨v, hv, hl⟩ := s.resetValues.resumeLines_linesBecome
    exact ⟨_, v, congrArg Host.Outcome.next (s.resetByHost_of_faulted h), hl, hv⟩
  · have hexec : exec c s = .next s.resetByPower := by rcases hc with rfl | rfl <;> rfl
    refine ⟨_, s.startedLines, _, hexec, fun l => ?_, fun l => ?_, s.resetByPower_linesBecome⟩
    · simp [State.startedLines, Line.restart]
    · simp [State.startedLines, Line.restart]

/-! ### The data of the setup read -/

/-- Entry to RUNNING loads every debounce time as a LINES order naming all lines does (R148, R12). -/
theorem State.enterRunning_linesBecome (c : SetupCopy) :
    ∃ v, (∀ l : Fin 16, v[l] = s.lines.lines[l].retimed c.debounce[l])
      ∧ LinesBecome
          { s.emptied with
            run.runState := .running
            run.copy := c
            fetch.state := .idle
            lines.latest := none } (s.enterRunning c) v false := by
  obtain ⟨v, hv, hl⟩ := State.retimeLines_linesBecome
    { s.emptied with
      run.runState := .running
      run.copy := c
      fetch.state := .idle
      lines.latest := none } 0xFFFF fun i => c.debounce[i]
  refine ⟨v, fun l => (hl l).1 ?_, hv⟩
  have : (0xFFFF : LineWord) = BitVec.allOnes 16 := rfl
  rw [this, BitVec.getLsbD_allOnes]
  exact decide_eq_true l.isLt

/-- Data that answers the setup read of a start has the effect of `State.setupData`. -/
theorem State.exec_setupReadData {r : BusRead} (data : BitVec 1024)
    (hs : s.run.runState = .starting) (hr : s.run.setupRead = some r) (hf : r.refused = false) :
    exec (.setupReadData r.tag data) s = .next (s.setupData (SetupCopy.ofRecord data)) :=
  s.whenever_true _ (by simp [State.setupReading, hs, hr, BusRead.answeredBy, hf])

/-- Settles O46, by RUN and by the first failed check of the record. -/
theorem setupDataStartsRunOrEndsStart : Obligations.SetupDataStartsRunOrEndsStart := by
  intro s tag data r copy hs hr htag hf
  subst htag
  rw [s.exec_setupReadData data hs hr hf]
  unfold State.setupData
  rw [SetupCopy.check_verdict]
  refine ⟨fun hrun => ?_, fun hrun hbad => ?_, fun hrun hok => ?_⟩
  · rw [if_pos (by simp [hrun]), s.endStart_startEnded]
  · rw [if_neg (by simp [hrun]), if_neg (by simpa using hbad), s.endStart_startEnded]
  · obtain ⟨v, hl, hv⟩ := s.enterRunning_linesBecome copy
    refine ⟨_, v, ?_, hl, hv⟩
    rw [if_neg (by simp [hrun]), if_pos (by simpa using hok)]

end Sys2Proof.Machine
end

/-! ## The register window and the state after reset (O45, O3, O58) -/

section
namespace Sys2Proof.Machine

variable (s : State)

/-! ### The fields of STATUS (R159) -/

/-- The three codes lie in disjoint fields of the word, so each is read back alone. -/
theorem extractLsb'_status (o w : Nat) :
    s.status.extractLsb' o w =
      s.run.runState.code.extractLsb' o w
        ||| (s.run.faultCode.code <<< 8).extractLsb' o w
        ||| (s.run.setupResult.code <<< 16).extractLsb' o w := by
  unfold State.status
  rw [BitVec.extractLsb'_or, BitVec.extractLsb'_or]

theorem RunState.code_fields (r : RunState) :
    r.code.extractLsb' 8 3 = 0 ∧ r.code.extractLsb' 16 4 = 0 ∧ r.code &&& 0xFFF0F8F8 = 0 := by
  cases r <;> decide

theorem FaultCode.code_fields (f : FaultCode) :
    (f.code <<< 8).extractLsb' 0 3 = 0 ∧ (f.code <<< 8).extractLsb' 16 4 = 0
      ∧ (f.code <<< 8) &&& 0xFFF0F8F8 = 0 := by
  cases f <;> decide

theorem SetupResult.code_fields (r : SetupResult) :
    (r.code <<< 16).extractLsb' 0 3 = 0 ∧ (r.code <<< 16).extractLsb' 8 3 = 0
      ∧ (r.code <<< 16) &&& 0xFFF0F8F8 = 0 := by
  cases r <;> decide

theorem State.status_runState :
    s.status.extractLsb' 0 3 = s.run.runState.code.extractLsb' 0 3 := by
  obtain ⟨hf, -, -⟩ := s.run.faultCode.code_fields
  obtain ⟨hr, -, -⟩ := s.run.setupResult.code_fields
  simp [extractLsb'_status, hf, hr]

theorem State.status_faultCode :
    s.status.extractLsb' 8 3 = (s.run.faultCode.code <<< 8).extractLsb' 8 3 := by
  obtain ⟨hs, -, -⟩ := s.run.runState.code_fields
  obtain ⟨-, hr, -⟩ := s.run.setupResult.code_fields
  simp [extractLsb'_status, hs, hr]

theorem State.status_setupResult :
    s.status.extractLsb' 16 4 = (s.run.setupResult.code <<< 16).extractLsb' 16 4 := by
  obtain ⟨-, hs, -⟩ := s.run.runState.code_fields
  obtain ⟨-, hf, -⟩ := s.run.faultCode.code_fields
  simp [extractLsb'_status, hs, hf]

/-- Bits of STATUS that belong to no field read 0 (R156). -/
theorem State.status_unnamed : s.status &&& 0xFFF0F8F8 = 0 := by
  obtain ⟨-, -, hs⟩ := s.run.runState.code_fields
  obtain ⟨-, -, hf⟩ := s.run.faultCode.code_fields
  obtain ⟨-, -, hr⟩ := s.run.setupResult.code_fields
  simp only [State.status, BitVec.and_or_distrib_right, hs, hf, hr]
  rfl

/-! ### The window -/

theorem State.readWindow_ident : s.readWindow 0x00 .bits32 = 0x0A160001 := rfl
theorem State.readWindow_control :
    s.readWindow 0x04 .bits32 = if s.window.run then 1 else 0 := rfl
theorem State.readWindow_status : s.readWindow 0x08 .bits32 = s.status := rfl
theorem State.readWindow_lineState : s.readWindow 0x2C .bits32 = s.word.setWidth 32 := rfl

/-- An access that is not one aligned 32-bit access reads 0 (R156). -/
theorem State.readWindow_of_not_wellShaped (offset : BitVec 6) (width : AccessWidth)
    (h : wellShaped offset width = false) : s.readWindow offset width = 0 := by
  unfold State.readWindow; rw [if_pos (by simp [h])]

/-- An offset beyond the registers reads 0 (R156). -/
theorem State.readWindow_of_unmapped (offset : BitVec 6) (width : AccessWidth)
    (h : 0x30 ≤ offset.toNat) : s.readWindow offset width = 0 := by
  have hne : ∀ {o : BitVec 6}, o.toNat < 0x30 → (offset == o) = false := fun ho => by
    rw [beq_eq_false_iff_ne]; rintro rfl; omega
  cases hw : wellShaped offset width
  · exact s.readWindow_of_not_wellShaped offset width hw
  · unfold State.readWindow
    rw [hw, hne (o := offIdent) (by decide), hne (o := offControl) (by decide),
      hne (o := offStatus) (by decide), hne (o := offEvents) (by decide),
      hne (o := offEventMask) (by decide), hne (o := offSetupLo) (by decide),
      hne (o := offSetupHi) (by decide), hne (o := offOrderTail) (by decide),
      hne (o := offPoolTail) (by decide), hne (o := offDoneHead) (by decide),
      hne (o := offOrderHead) (by decide), hne (o := offLineState) (by decide)]
    rfl

theorem State.readWindow_of_no_register (offset : BitVec 6) (width : AccessWidth)
    (h : width ≠ .bits32 ∨ ¬ 4 ∣ offset.toNat ∨ 0x30 ≤ offset.toNat) :
    s.readWindow offset width = 0 := by
  rcases h with hwidth | halign | hbeyond
  · exact s.readWindow_of_not_wellShaped offset width (by simp [wellShaped, hwidth])
  · have : offset.toNat % 4 ≠ 0 := by rwa [Nat.dvd_iff_mod_eq_zero] at halign
    exact s.readWindow_of_not_wellShaped offset width (by simp [wellShaped, this])
  · exact s.readWindow_of_unmapped offset width hbeyond

/-- L0 is in bit 0 of LINE_STATE (R10). -/
theorem State.readWindow_line (l : Fin 16) :
    (s.readWindow 0x2C .bits32).getLsbD l = s.lines.lines[l].level := by
  rw [s.readWindow_lineState, BitVec.getLsbD_setWidth, State.word, getLsbD_lineWord,
    decide_eq_true (by omega), Bool.true_and]

theorem State.readWindow_line_beyond (k : Nat) (h : 16 ≤ k) :
    (s.readWindow 0x2C .bits32).getLsbD k = false := by
  rw [s.readWindow_lineState, BitVec.getLsbD_setWidth, BitVec.getLsbD_of_ge _ _ h, Bool.and_false]

/-- Settles O45: the fields of STATUS and the bits of LINE_STATE by their lemmas, the other registers
as the window holds them. -/
theorem windowReadsWhatTheCardHolds : Obligations.WindowReadsWhatTheCardHolds := by
  refine ⟨fun s => ⟨s.readWindow_ident, s.readWindow_control, ?_, ?_, ?_, s.status_unnamed, rfl, rfl,
    rfl, rfl, rfl, rfl, rfl, rfl, s.readWindow_line, s.readWindow_line_beyond,
    s.readWindow_of_no_register⟩, fun _ _ _ => rfl⟩
  · rw [s.readWindow_status, s.status_runState]; cases s.run.runState <;> rfl
  · rw [s.readWindow_status, s.status_faultCode]; cases s.run.faultCode <;> rfl
  · rw [s.readWindow_status, s.status_setupResult]; cases s.run.setupResult <;> rfl

/-! ### The state after a power-on reset -/

theorem State.reset_slot (i : Fin 32) : State.reset.slot i = Slot.free :=
  State.slot_freeSlots i State.reset

theorem State.reset_line (l : Fin 16) : State.reset.lines.lines[l] = Line.reset := by
  simp [State.reset]

theorem State.reset_channel (c : Fin 12) :
    State.reset.run.copy.channels[c] = { enabled := false, settle := 0 } := by
  simp [State.reset, RunControl.reset, SetupCopy.cleared]

theorem State.reset_word : State.reset.word = 0 :=
  (lineWord_ext fun l => by rw [State.reset_line]; simp [Line.reset]).symm

/-- Settles O3: the blocks by their reset values, the lines, channels, slots and the word by their
lemmas. -/
theorem powerOnResetValues : Obligations.PowerOnResetValues := by
  have hwindow : ∀ o ∈ [0x04, 0x08, 0x0C, 0x10, 0x14, 0x18, 0x1C, 0x20, 0x24, 0x28],
      State.reset.readWindow o .bits32 = 0 := by decide
  have hlines : State.reset.readWindow 0x2C .bits32 = 0 := by
    rw [State.readWindow_lineState, State.reset_word]; rfl
  refine ⟨rfl, rfl, rfl, rfl, rfl, rfl, rfl, fun c => by rw [State.reset_channel], fun l => ?_,
    State.reset_word, rfl, rfl, rfl, rfl, rfl, fun i => by rw [State.reset_slot]; rfl, rfl, rfl, rfl,
    rfl, rfl, rfl, rfl, rfl, rfl, rfl, rfl, rfl, rfl, rfl, rfl, rfl, rfl, fun o ho => ?_⟩
  · rw [State.reset_line]; exact ⟨rfl, rfl, rfl⟩
  · rw [show [0x04, 0x08, 0x0C, 0x10, 0x14, 0x18, 0x1C, 0x20, 0x24, 0x28, 0x2C] =
      [0x04, 0x08, 0x0C, 0x10, 0x14, 0x18, 0x1C, 0x20, 0x24, 0x28] ++ [(0x2C : BitVec 6)] from rfl,
      List.mem_append, List.mem_singleton] at ho
    rcases ho with ho | rfl
    · exact hwindow o ho
    · exact hlines

/-- No slot holds an order after the reset, so nothing is outstanding (R39, R52). -/
theorem State.reset_outstanding (i : Fin 32) : State.reset.outstanding i = 0 := by
  unfold State.outstanding; rw [State.reset_slot]; rfl

theorem State.reset_marksAgree (i : Fin 32) : State.reset.MarksAgree i := by
  unfold State.MarksAgree
  rw [State.reset_slot]
  simp [State.reset, Scheduler.reset, Slot.free, Slot.holding]

theorem State.reset_accounted (i : Fin 32) : State.reset.Accounted i := by
  unfold State.Accounted
  rw [State.reset_slot, State.reset_outstanding]
  simp [State.NoEntry, State.reset, Scheduler.reset, Slot.free, Slot.holding]

theorem reset_linesSettled : LinesSettled State.reset :=
  linesSettled_of_settled (by decide) fun l => by
    rw [State.reset_line]; exact Line.settled_of_steady _ rfl rfl

theorem reset_gatesLinkBackward : GatesLinkBackward State.reset := by
  unfold GatesLinkBackward
  simp only [State.reset_slot]
  exact ⟨fun _ h => absurd rfl h, fun _ => rfl, fun _ => by decide, fun _ h => nomatch h⟩

/-- Settles O58, one invariant at a time: every store is empty, every slot FREE, every line STEADY. -/
theorem resetMeetsTheInvariants : Obligations.ResetMeetsTheInvariants := by
  refine ⟨?capacity, ?order, ?tags, reset_linesSettled, reset_gatesLinkBackward,
    fun i => ⟨State.reset_marksAgree i, State.reset_accounted i⟩⟩
  case capacity => exact ⟨by decide, by decide, by decide⟩
  case order => exact ⟨List.Pairwise.nil, List.nodup_nil⟩
  case tags => intro i _ hi; exact absurd (by rw [State.reset_slot]; rfl) hi

end Sys2Proof.Machine
end

/-! ## Patterns (O6) -/

section
namespace Sys2Proof.Machine

variable (p : Pattern) (word : LineWord)

/-- A line of the mask is active when it has its active level (R16). -/
theorem Pattern.getLsbD_active (k : Fin 16) :
    (p.active word).getLsbD k =
      (p.mask.getLsbD k && word.getLsbD k == p.levels.getLsbD k) := by
  simp only [Pattern.active, BitVec.getLsbD_and, BitVec.getLsbD_not, BitVec.getLsbD_xor, k.isLt,
    decide_true, Bool.true_and]
  exact (Bool.and_comm _ _).trans (congrArg _ (Bool.not_not _))

theorem Pattern.active_eq_zero_iff :
    p.active word = 0 ↔
      ∀ k : Fin 16, p.mask.getLsbD k = true → word.getLsbD k ≠ p.levels.getLsbD k := by
  have bit : ∀ k : Fin 16, (p.active word).getLsbD k = false ↔
      (p.mask.getLsbD k = true → word.getLsbD k ≠ p.levels.getLsbD k) := fun k => by
    rw [p.getLsbD_active, Bool.and_eq_false_iff, beq_eq_false_iff_ne, ← Bool.not_eq_true,
      imp_iff_not_or]
  refine ⟨fun h k => (bit k).1 (by rw [h]; exact BitVec.getLsbD_zero), fun h => ?_⟩
  refine BitVec.eq_of_getLsbD_eq fun k hk => ?_
  exact ((bit ⟨k, hk⟩).2 (h ⟨k, hk⟩)).trans BitVec.getLsbD_zero.symm

theorem Pattern.active_eq_mask_iff :
    p.active word = p.mask ↔
      ∀ k : Fin 16, p.mask.getLsbD k = true → word.getLsbD k = p.levels.getLsbD k := by
  have bit : ∀ k : Fin 16, (p.active word).getLsbD k = p.mask.getLsbD k ↔
      (p.mask.getLsbD k = true → word.getLsbD k = p.levels.getLsbD k) := fun k => by
    rw [p.getLsbD_active, Bool.and_eq_left_iff_imp, beq_iff_eq]
  refine ⟨fun h k => (bit k).1 (by rw [h]), fun h => ?_⟩
  exact BitVec.eq_of_getLsbD_eq fun k hk => (bit ⟨k, hk⟩).2 (h ⟨k, hk⟩)

theorem Pattern.holds_iff_of_any (h : p.combine = .any) :
    p.holds word = true ↔ p.active word ≠ 0 := by
  rw [Pattern.holds, h]; exact bne_iff_ne

theorem Pattern.holds_iff_of_all (h : p.combine = .all) :
    p.holds word = true ↔ p.active word = p.mask := by
  rw [Pattern.holds, h]; exact beq_iff_eq

/-- Settles O6: ANY asks for an active line, ALL for the whole mask, bit by bit. -/
theorem patternConditionAnyAll : Obligations.PatternConditionAnyAll := by
  refine fun p word => ⟨fun h => ?any, fun h => ?all⟩
  case any =>
    rw [p.holds_iff_of_any word h, Ne, p.active_eq_zero_iff]
    push Not
    rfl
  case all => rw [p.holds_iff_of_all word h, p.active_eq_mask_iff]

end Sys2Proof.Machine
end

/-! ## The watch, the gate and the start delay (O7 to O10) -/

section
namespace Sys2Proof.Machine

variable (s : State) (i : Fin 32)

/-! ### A line event taken (R20 to R22) -/

/-- A slot in the watch takes its oldest line event off its list and judges its condition on the
event's word. -/
theorem exec_lineEventTaken {a : ArmOrder} {w : WatchState} {e : LineEvent} {rest : List LineEvent}
    (hrun : s.run.runState = .running) (hkind : (s.slot i).order.kind = .arm a)
    (hstate : (s.slot i).state = .watching w) (hoffer : (s.slot i).offered = e :: rest) :
    exec (.lineEventTaken i) s =
      .next ((s.setSlot i { s.slot i with offered := rest }).judgeLineEvent i a w e) := by
  have hcan : s.canTakeLineEvent i = true := by
    simp [State.canTakeLineEvent, s.isRunning_iff.2 hrun, (Slot.isWatching_iff _).2 ⟨w, hstate⟩,
      hoffer]
  refine (s.whenever_true _ hcan).trans ?_
  simp only [State.takeLineEvent, hkind, hstate, hoffer, List.head?_cons, List.tail_cons]

section
variable (a : ArmOrder) (w : WatchState) (e : LineEvent)

theorem State.judgeLineEvent_of_false (h : a.pattern.holds e.word = false) :
    s.judgeLineEvent i a w e = s.setSlot i ((s.slot i).watchingIn .trueWait) := by
  unfold State.judgeLineEvent; rw [h]; cases w <;> rfl

theorem State.judgeLineEvent_of_true (h : a.pattern.holds e.word = true) (hw : w ≠ .trueWait) :
    s.judgeLineEvent i a w e = s := by
  unfold State.judgeLineEvent
  rw [h]
  cases w
  case trueWait => exact absurd rfl hw
  all_goals rfl

theorem State.judgeLineEvent_trueWait (h : a.pattern.holds e.word = true) :
    s.judgeLineEvent i a .trueWait e = s.conditionTrue i a e.time := by
  unfold State.judgeLineEvent; rw [h]

theorem State.conditionTrue_holds (time : Timestamp) (h : a.holdTime ≠ 0) :
    s.conditionTrue i a time = s.setSlot i ((s.slot i).holdingSince time) :=
  if_neg (by simpa using h)

theorem State.conditionTrue_fires (time : Timestamp) (h : a.holdTime = 0) :
    s.conditionTrue i a time = s.fire i .pattern time time :=
  if_pos (by simpa using h)

end

/-- A fire clears the line events offered, so it is the same from whatever list of them (R32). -/
theorem Fires.of_setSlot_offered {s t : State} {i : Fin 32} {cause : Cause} {onset time : Timestamp}
    {l : List LineEvent}
    (h : Fires (s.setSlot i { s.slot i with offered := l }) t i cause onset time) :
    Fires s t i cause onset time := by
  obtain ⟨hslot, hothers, hframe⟩ := h
  refine ⟨?slot, fun j hj => ?others, ?frame⟩
  case slot =>
    rw [hslot]
    simp only [State.fireRecord, State.slot_setSlot_self]
    rfl
  case others =>
    have := hothers j hj
    rwa [State.slot_setSlot_ne _ _ _ _ hj] at this
  case frame =>
    rw [hframe]
    simp only [State.entryNow, State.slot_setSlot_self]
    rfl

/-- Settles O7, by the value of the condition and the substate. -/
theorem lineEventJudgedBySubstate : Obligations.LineEventJudgedBySubstate := by
  intro s i a w e rest hrun hkind hstate hoffer y after
  have htaken : after = .next ((s.setSlot i y).judgeLineEvent i a w e) :=
    exec_lineEventTaken s i hrun hkind hstate hoffer
  have hy : (s.setSlot i y).slot i = y := s.slot_setSlot_self i y
  refine ⟨fun hc => ?false, fun hc hw => ?stays, fun hc hw hz => ?holds, fun hc hw hz hn => ?fires⟩
  case false => rw [htaken, State.judgeLineEvent_of_false _ _ _ _ _ hc, hy, State.setSlot_setSlot]
  case stays => rw [htaken, State.judgeLineEvent_of_true _ _ _ _ _ hc hw]
  case holds =>
    subst hw
    rw [htaken, State.judgeLineEvent_trueWait _ _ _ _ hc, State.conditionTrue_holds _ _ _ _ hz, hy,
      State.setSlot_setSlot]
  case fires =>
    subst hw
    rw [State.judgeLineEvent_trueWait _ _ _ _ hc, State.conditionTrue_fires _ _ _ _ hz] at htaken
    exact ⟨_, htaken, ((s.setSlot i y).fire_fires i _ _ _ hn).of_setSlot_offered⟩

/-! ### Expiries (R23, R25, R26, R49) -/

theorem exec_holdExpiry {a : ArmOrder} {onset : Timestamp} (hrun : s.run.runState = .running)
    (hkind : (s.slot i).order.kind = .arm a) (hstate : (s.slot i).state = .watching .hold)
    (honset : (s.slot i).onset = some onset) (hr : Reached (s.slot i).holdTimer a.holdTime.toNat) :
    exec (.holdExpiry i) s = .next (s.fire i .pattern onset s.now) := by
  have htime : (s.slot i).holdTime = a.holdTime.toNat := by simp only [Slot.holdTime, hkind]
  have hcan : s.canHoldExpire i = true := by
    simp [State.canHoldExpire, s.isRunning_iff.2 hrun, hstate, htime, (timerReached_iff _ _).2 hr]
  refine (s.whenever_true _ hcan).trans ?_
  rw [honset, Option.getD_some]

theorem exec_delayExpiry {delay : BitVec 24} (hrun : s.run.runState = .running)
    (hkind : (s.slot i).order.kind = .sample delay) (hstate : (s.slot i).state = .delaying)
    (hr : Reached (s.slot i).delayTimer delay.toNat) :
    exec (.delayExpiry i) s = .next (s.fire i .start s.now s.now) := by
  have htime : (s.slot i).startDelay = delay.toNat := by simp only [Slot.startDelay, hkind]
  have hcan : s.canDelayExpire i = true := by
    simp [State.canDelayExpire, s.isRunning_iff.2 hrun, hstate, htime, (timerReached_iff _ _).2 hr]
  exact s.whenever_true _ hcan

/-- Settles O8: both expiries fire. -/
theorem holdAndDelayExpiryFire : Obligations.HoldAndDelayExpiryFire := by
  refine fun s i n hrun hn => ⟨fun a onset hkind hstate honset htimer hle => ?hold,
    fun delay hkind hstate htimer hle => ?delay⟩
  case hold =>
    exact ⟨_, exec_holdExpiry s i hrun hkind hstate honset ⟨n, htimer, hle⟩,
      s.fire_fires i _ _ _ hn⟩
  case delay =>
    exact ⟨_, exec_delayExpiry s i hrun hkind hstate ⟨n, htimer, hle⟩, s.fire_fires i _ _ _ hn⟩

theorem exec_armExpiry {a : ArmOrder} (hrun : s.run.runState = .running)
    (hkind : (s.slot i).order.kind = .arm a)
    (hstate : (∃ w, (s.slot i).state = .watching w) ∨ (s.slot i).state = .gated)
    (hr : Reached (s.slot i).armTimer (a.armTimeout.toNat * 1000)) :
    exec (.armExpiry i) s =
      .next (if a.fireOnTimeout then s.fire i .timeout s.now s.now
        else s.closeSlot i .timedOut s.now) := by
  have hlimit : (s.slot i).armLimit = a.armTimeout.toNat * 1000 := by
    simp only [Slot.armLimit, hkind, Config.perMilli]
  have hflag : (s.slot i).fireOnTimeout = a.fireOnTimeout := by
    simp only [Slot.fireOnTimeout, hkind]
  have hwaits : ((s.slot i).isWatching || (s.slot i).state == .gated) = true := by
    rwa [Bool.or_eq_true, Slot.isWatching_iff, beq_iff_eq]
  have hcan : s.canArmExpire i = true := by
    rw [State.canArmExpire, s.isRunning_iff.2 hrun, hwaits, hlimit, (timerReached_iff _ _).2 hr]
    rfl
  refine (s.whenever_true _ hcan).trans ?_
  rw [hflag]

/-- Settles O9, by the flag FIRE_ON_TIMEOUT. -/
theorem armExpiryFiresOrEnds : Obligations.ArmExpiryFiresOrEnds := by
  intro s i a n hrun hkind hstate htimer hle
  have hexec := exec_armExpiry s i hrun hkind hstate ⟨n, htimer, hle⟩
  refine ⟨fun hflag hn => ⟨_, ?_, s.fire_fires i .timeout s.now s.now hn⟩,
    fun hflag => ⟨_, ?_, s.closeSlot_ends i .timedOut s.now⟩⟩
  · rw [hexec, if_pos hflag]
  · rw [hexec, if_neg (by simp [hflag])]

/-! ### The gate (R46, R47) -/

theorem Slot.nextGateEvent_of_gated {x : Slot} {e : GateEvent} {rest : List GateEvent}
    (hstate : x.state = .gated) (he : x.gateEvents = e :: rest) : x.nextGateEvent = some e := by
  simp [Slot.nextGateEvent, hstate, he]

theorem exec_gateOpening {time : Timestamp} (hrun : s.run.runState = .running)
    (he : (s.slot i).nextGateEvent = some (.opening time)) :
    exec (.gateOpening i) s = .next (s.enterWatch i time) := by
  have hopen : (s.slot i).openingTime = some time := by simp only [Slot.openingTime, he]
  refine (s.whenever_true _ ?_).trans ?_
  · simp [s.isRunning_iff.2 hrun, hopen]
  · rw [hopen, Option.getD_some]

theorem exec_gateLoss {time : Timestamp} (hrun : s.run.runState = .running)
    (he : (s.slot i).nextGateEvent = some (.loss time)) :
    exec (.gateLoss i) s = .next (s.closeSlot i .gateLost time) := by
  have hloss : (s.slot i).lossTime = some time := by simp only [Slot.lossTime, he]
  refine (s.whenever_true _ ?_).trans ?_
  · simp [s.isRunning_iff.2 hrun, hloss]
  · rw [hloss, Option.getD_some]

/-- Settles O10, by the oldest event of the gate. -/
theorem followerOpensOrLosesGate : Obligations.FollowerOpensOrLosesGate := by
  refine fun s i a time rest hrun hkind hstate => ⟨fun he hn => ?opening, fun he => ?loss⟩
  case opening =>
    exact ⟨_, exec_gateOpening s i hrun (Slot.nextGateEvent_of_gated hstate he),
      s.enterWatch_entersWatch i a time hkind hn⟩
  case loss =>
    exact ⟨_, exec_gateLoss s i hrun (Slot.nextGateEvent_of_gated hstate he),
      s.closeSlot_ends i .gateLost time⟩

end Sys2Proof.Machine
end

/-! ## FIRED records and the completion of a firing (O11, O12) -/

section
namespace Sys2Proof.Machine

variable (s : State) (i : Fin 32)

/-- The pending record enters the Post Queue, and the slot may ask for its page (R35, R54, R57). -/
theorem State.takeFired_posted {r : FiredRecord} (hr : (s.slot i).pendingFired = some r) :
    ∃ y, { s.slot i with pendingFired := none }.pageSettled.AskedFrom s.moment y
      ∧ s.takeFired i = (s.setSlot i y).posted (.fired r) := by
  obtain ⟨y, hy, htaken⟩ := ((s.postRecord (.fired r)).setSlot i
    { s.slot i with pendingFired := none }.pageSettled).noteRequest_asked i
  rw [State.slot_setSlot_self] at hy
  rw [State.setSlot_setSlot] at htaken
  refine ⟨y, hy, ?_⟩
  unfold State.takeFired
  rw [hr]
  exact htaken

/-- Settles O11, by what the settling of the page and the note of the request each do. -/
theorem firedRecordLeavesSlot : Obligations.FiredRecordLeavesSlot := by
  intro s i r hlive hroom hr
  have hcan : s.canTakeFired i = true := by
    simp [State.canTakeFired, s.isLive_iff.2 hlive, s.postRoom_iff.2 hroom, hr]
  obtain ⟨y, hy, htaken⟩ := s.takeFired_posted i hr
  refine ⟨_, y, Slot.pageSettled_settles _, hy, (s.whenever_true _ hcan).trans ?_⟩
  rw [htaken]

theorem exec_firingCompletion_returns (h : s.AwaitsCompletion i) :
    exec (.firingCompletion i) s = .next (s.returnToWatch i) :=
  if_pos ((s.canReturn_iff i).2 h)

/-- The last firing of an order that ended OK is counted within CLOSING (R57 step 4). -/
theorem exec_firingCompletion_last (hlive : s.Live) (hstate : (s.slot i).state = .closing)
    (hreason : (s.slot i).endReason = some .ok) (hpage : (s.slot i).handOn = .pageDone)
    (hfired : (s.slot i).pendingFired = none) :
    exec (.firingCompletion i) s =
      .next (s.setSlot i { s.slot i with firings := (s.slot i).firings + 1
                                         handOn := .completed }) := by
  have hreturn : ¬ s.canReturn i = true := fun h => by
    obtain ⟨-, hrunning, -⟩ := (s.canReturn_iff i).1 h
    rw [hstate] at hrunning
    cases hrunning
  have hcan : s.canComplete i = true := by
    simp [State.canComplete, s.isLive_iff.2 hlive, hstate, hreason, hpage, hfired]
  exact (if_neg hreturn).trans (s.whenever_true _ hcan)

/-- Settles O12, in the watch and in CLOSING. -/
theorem firingCompletionIsCounted : Obligations.FiringCompletionIsCounted := by
  refine fun s i => ⟨fun h hn => ?returns, exec_firingCompletion_last s i⟩
  case returns =>
    refine ⟨_, exec_firingCompletion_returns s i h, ?_⟩
    obtain ⟨-, -, -, -, -, -, a, hkind⟩ := h
    exact s.returnToWatch_completes i a hkind hn

end Sys2Proof.Machine
end

/-! ## ARM orders (O31) -/

section
namespace Sys2Proof.Machine

variable (s : State) {h : HeldOrder} {i : Fin 32}

/-! ### Taking an order that needs a slot (R118) -/

/-- A valid order that needs a slot, with one FREE and room in the Post Queue, can be taken
(Table 6-5). -/
theorem State.maySlot_of_mayTake (hm : s.MayTake h) (hroom : s.HasRoom) (hd : h.detail = 0)
    (hfree : s.LowestFree i) : s.maySlot h.image.kind = true := by
  obtain ⟨hrun, hstate, hheld, htail⟩ := hm
  simp [State.maySlot, s.mayTake_iff.2 ⟨hrun, hstate, htail⟩, State.heldIs, hheld,
    (h.isValid_iff _).2 ⟨hd, rfl⟩, (s.lowestFree_some i).2 hfree, s.postRoom_iff.2 hroom]

theorem State.takeSlotOrder_eq (hm : s.MayTake h) (hfree : s.LowestFree i) :
    s.takeSlotOrder = s.takeForSlot h i := by
  obtain ⟨-, -, hheld, -⟩ := hm
  simp only [State.takeSlotOrder, hheld, (s.lowestFree_some i).2 hfree]

/-- An order with a tag in use is refused (R42). -/
theorem State.takeForSlot_of_tagHeld (ht : ∃ j, s.Holds j h.image.tag) :
    s.takeForSlot h i = s.answered h.image.tag .tagBusy h.detail := by
  have hheld : (s.holderOf h.image.tag).isSome = true := by
    obtain ⟨j, hj⟩ := ht
    rw [Option.isSome_iff_ne_none]
    exact fun hnone => (s.holderOf_none _).1 hnone j hj
  rw [State.takeForSlot, if_pos hheld, s.takeAndAnswer_answered]

theorem State.takeForSlot_of_gateLost (ht : ∀ j, ¬ s.Holds j h.image.tag)
    (hg : s.gateCheck h.image = none) :
    s.takeForSlot h i = s.answered h.image.tag .gateLost h.detail := by
  simp only [State.takeForSlot, (s.holderOf_none _).2 ht, hg, s.takeAndAnswer_answered,
    Option.isSome_none, Bool.false_eq_true, if_false]

/-- An order with a new tag and a live gate, if it has one, gets the slot (R43, R44). -/
theorem State.takeForSlot_of_gateCheck (ht : ∀ j, ¬ s.Holds j h.image.tag)
    {target : Option (Fin 32)} (hg : s.gateCheck h.image = some target) :
    s.takeForSlot h i =
      s.afterTaking.giveSlot i (h.image.copy (s.run.orderNumber + 1)) target := by
  simp only [State.takeForSlot, (s.holderOf_none _).2 ht, hg, s.takeHeld_afterTaking,
    State.nextOrderNumber, Option.isSome_none, Bool.false_eq_true, if_false]

/-! ### The gate check (R44) -/

section
variable {o : OrderImage} {gate : BitVec 16}

theorem State.gateCheck_of_no_gate (hg : o.gate = none) : s.gateCheck o = some none := by
  simp only [State.gateCheck, hg]

theorem State.gateCheck_of_closing (hg : o.gate = some gate)
    (hclosing : ∀ j, s.Holds j gate → (s.slot j).state = .closing) : s.gateCheck o = none := by
  unfold State.gateCheck
  rw [hg]
  cases hholder : s.holderOf gate with
  | none => simp only [hholder]
  | some j => simp [hholder, hclosing j (s.holds_of_holderOf hholder)]

theorem State.gateCheck_of_target {k : Fin 32} (hd : TagsDistinct s) (hg : o.gate = some gate)
    (hk : s.Holds k gate) (hlive : (s.slot k).state ≠ .closing) :
    s.gateCheck o = some (some k) := by
  simp [State.gateCheck, hg, s.holderOf_some_of_holds hd hk, hlive]

end

/-- The gate tag of an ARM is the one in its copy (R41, R44). -/
theorem OrderImage.gate_of_copy {o : OrderImage} {number : BitVec 32} {a : ArmOrder}
    (hkind : o.kind = 1) (hcopy : (o.copy number).kind = .arm a) : o.gate = a.gateTag := by
  have harm : (o.kind == kindArm) = true := beq_iff_eq.2 hkind
  simp only [OrderImage.copy, harm, if_true, OrderKind.arm.injEq] at hcopy
  rw [← hcopy, OrderImage.gate, harm, Bool.true_and]

/-! ### The admission of an ARM (R18, R24, R43) -/

section
variable {copy : OrderCopy} {a : ArmOrder}

theorem State.giveSlot_arm_gated (hk : copy.kind = .arm a) (k : Fin 32) :
    s.giveSlot i copy (some k) =
      s.setSlot i
        { Slot.holding copy .gated with gateTarget := some k, armTimer := a.timerStart } := by
  simp [State.giveSlot, hk, ArmOrder.startTimer, ArmOrder.timerStart]

theorem State.giveSlot_arm_entersWatch (hk : copy.kind = .arm a) (hn : s.NoEntry i) :
    EntersWatch
      (s.setSlot i { Slot.holding copy (.watching .trueWait) with armTimer := a.timerStart })
      (s.giveSlot i copy none) i a s.now := by
  have hgive : s.giveSlot i copy none =
      (s.setSlot i
        { Slot.holding copy (.watching .trueWait) with armTimer := a.timerStart }).enterWatch
          i s.now := by
    simp [State.giveSlot, hk, ArmOrder.startTimer, ArmOrder.timerStart]
  rw [hgive]
  exact State.enterWatch_entersWatch _ i a _ (by rw [State.slot_setSlot_self]; exact hk) hn

end

/-- Settles O31, by the holder of the tag and then by the gate check. -/
theorem armIsAdmittedOrRefused : Obligations.ArmIsAdmittedOrRefused := by
  intro s h i a copy hm hroom hd hkind hfree hcopy
  have hgate : h.image.gate = a.gateTag := OrderImage.gate_of_copy hkind hcopy
  have hexec : exec .arm s = .next (s.takeForSlot h i) := by
    have hmay := s.maySlot_of_mayTake hm hroom hd hfree
    rw [hkind] at hmay
    rw [← s.takeSlotOrder_eq hm hfree]
    exact s.whenever_true _ hmay
  rw [hexec, ← hd]
  refine ⟨fun ht => ?busy, fun ht => ⟨fun gate hg hclosing => ?lost,
    fun gate k htags hg hk hlive => ?gated, fun hg hn => ?watch⟩⟩
  case busy => rw [s.takeForSlot_of_tagHeld ht]; rfl
  case lost =>
    rw [s.takeForSlot_of_gateLost ht (s.gateCheck_of_closing (hgate.trans hg) hclosing)]; rfl
  case gated =>
    rw [s.takeForSlot_of_gateCheck ht (s.gateCheck_of_target htags (hgate.trans hg) hk hlive)]
    exact congrArg _ (s.afterTaking.giveSlot_arm_gated hcopy k)
  case watch =>
    rw [s.takeForSlot_of_gateCheck ht (s.gateCheck_of_no_gate (hgate.trans hg))]
    exact ⟨_, rfl, s.afterTaking.giveSlot_arm_entersWatch hcopy hn⟩

end Sys2Proof.Machine
end

/-! ## What a step leaves of each slot's order and of its scans -/

section
namespace Sys2Proof.Machine

/-! ### A slot as the invariants read it -/

/-- The record of a slot with every field blank that no invariant of orders, gates or scans reads;
of the interval timer and of the open page it keeps whether they are there. -/
def Slot.essence (x : Slot) : Slot :=
  { x with
    endTime := none
    nextDue := none
    missedRun := 0
    intervalTimer := x.intervalTimer.map fun _ => 0
    holdTimer := none
    armTimer := none
    delayTimer := none
    onset := none
    offered := []
    pagesPosted := 0
    pageSequence := 0
    openPage := x.openPage.map fun _ => Descriptor.openPage { address := 0, ident := 0 }
    carriedMisses := 0
    carriedFiring := none
    pendingFired := none
    requestSince := none }

/-- The essence of a slot without its gate: all that the account of its scans reads. -/
def Slot.books (x : Slot) : Slot := { x.essence with gateTarget := none, gateEvents := [] }

theorem Slot.books_of_essence {x y : Slot} (h : y.essence = x.essence) : y.books = x.books := by
  unfold Slot.books; rw [h]

theorem Slot.AskedFrom.essence {x y : Slot} {m : Moment} (h : x.AskedFrom m y) :
    y.essence = x.essence := by
  by_cases ha : x.Asks ∧ x.requestSince = none
  · rw [h.1 ha.1 ha.2]; rfl
  · rw [h.2 ha]

theorem Slot.books_hear (x : Slot) (i : Fin 32) (e : GateEvent) : (x.hear i e).books = x.books := by
  unfold Slot.hear; split <;> rfl

theorem Slot.essence_offer (x : Slot) (e : LineEvent) : (x.offer e).essence = x.essence := by
  unfold Slot.offer; split <;> rfl

theorem Slot.essence_offerJoined (x : Slot) (old new : LineEvent) :
    (x.offerJoined old new).essence = x.essence := by
  unfold Slot.offerJoined
  split
  · rfl
  · exact x.essence_offer new

theorem Slot.essence_holdWork (x : Slot) : x.holdWork.essence = x.essence := by
  unfold Slot.holdWork Slot.essence; simp; cases x.openPage <;> rfl

theorem Slot.essence_tick (x : Slot) (limit : Nat) (moment : Moment) :
    (x.tick limit moment).essence = x.essence := by
  unfold Slot.tick Slot.essence tickTimer
  cases x.openPage <;> cases x.intervalTimer <;> rfl

/-! ### What the units hold of a slot's scans -/

/-- The firing indexes of the scans of one slot that wait, are converted and are staged. -/
structure Share where
  waiting : List Byte
  converting : Option Byte
  staged : List Byte

/-- The scans that the Due Queue, the converter and the Staging Buffer hold of slot `i`. -/
def Scheduler.share (d : Scheduler) (i : Fin 32) : Share :=
  { waiting := (d.due.filter fun e => e.slot == i).map DueEntry.firingIndex
    converting := (d.conversion.filter fun c => c.slot == i).map Conversion.firingIndex
    staged := (d.staging.filter fun r => r.slot == i).map ScanResult.firingIndex }

/-- All that the invariants of orders, gates and scans read of the slots and of the scans. -/
def State.essence (s : State) : (Fin 32 → Slot) × (Fin 32 → Share) :=
  (fun i => (s.slot i).essence, s.sched.share)

/-- What those invariants read of the Run Controller and of the Order Fetch Unit. -/
def State.control (s : State) : RunState × BitVec 32 × FetchState × Bool :=
  (s.run.runState, s.run.orderNumber, s.fetch.state, s.fetch.read.isSome)

/-- The state with everything blank that a slot's work may change: the slots, the Due Queue and the
fire number. -/
def State.frame (s : State) : State :=
  { s with run.fireNumber := 0, slots := freeSlots, sched.due := [] }

theorem State.control_of_frame {s t : State} (h : t.frame = s.frame) : t.control = s.control :=
  (congrArg State.control h : t.frame.control = s.frame.control)

/-! ### The frame of the shared operations -/

section
variable (s : State) (i : Fin 32)

@[simp] theorem State.frame_setSlot (x : Slot) : (s.setSlot i x).frame = s.frame := rfl

@[simp] theorem State.frame_noteRequest : (s.noteRequest i).frame = s.frame := by
  obtain ⟨y, -, h⟩ := s.noteRequest_asked i
  rw [h, State.frame_setSlot]

@[simp] theorem State.frame_closeSlot (reason : EndReason) (time : Timestamp) :
    (s.closeSlot i reason time).frame = s.frame := by
  obtain ⟨-, -, h⟩ := s.closeSlot_ends i reason time
  rw [h]; rfl

@[simp] theorem State.frame_endFiring : (s.endFiring i).frame = s.frame := by
  unfold State.endFiring
  dsimp only
  split
  · split <;> simp
  · rfl

@[simp] theorem State.frame_scanDue : (s.scanDue i).frame = s.frame := by
  unfold State.scanDue
  dsimp only
  split
  · simp
  · rfl

@[simp] theorem State.frame_fire (cause : Cause) (onset time : Timestamp) :
    (s.fire i cause onset time).frame = s.frame :=
  State.frame_scanDue _ i

@[simp] theorem State.frame_enterWatch (time : Timestamp) :
    (s.enterWatch i time).frame = s.frame := by
  unfold State.enterWatch State.conditionTrue
  dsimp only
  repeat' split
  all_goals simp

@[simp] theorem State.frame_returnToWatch : (s.returnToWatch i).frame = s.frame :=
  State.frame_enterWatch _ i _

@[simp] theorem State.frame_completeFiring : (s.completeFiring i).frame = s.frame := by
  unfold State.completeFiring; split <;> simp

@[simp] theorem State.frame_afterResolved : (s.afterResolved i).frame = s.frame := by
  unfold State.afterResolved
  dsimp only
  split <;> simp

@[simp] theorem State.frame_giveSlot (order : OrderCopy) (target : Option (Fin 32)) :
    (s.giveSlot i order target).frame = s.frame := by
  unfold State.giveSlot
  repeat' split
  all_goals simp

end

/-! ### Orders that go on -/

/-- The record `y` is a later one of the order in `x`, which has not entered CLOSING meanwhile; an
ARM still in GATED keeps its target and every loss it has heard of (R45). -/
structure Slot.GoesOn (x y : Slot) : Prop where
  order : y.order = x.order
  free : y.state = .free ↔ x.state = .free
  closing : y.state = .closing → x.state = .closing
  gated : y.state = .gated → x.state = .gated ∧ ∀ a, x.order.kind = .arm a →
    y.gateTarget = x.gateTarget ∧ ∀ time, .loss time ∈ x.gateEvents → .loss time ∈ y.gateEvents

/-- Every order of `t` is that of `s` in the same slot, and an ARM that is still in GATED keeps its
target and the losses it has heard of; it has heard of one if its target slot has entered CLOSING
(R45). -/
structure Continues (s t : State) : Prop where
  order : ∀ j, (t.slot j).order = (s.slot j).order
  free : ∀ j, (t.slot j).state = .free ↔ (s.slot j).state = .free
  gated : ∀ j, (t.slot j).state = .gated → (s.slot j).state = .gated
    ∧ ∀ a, (s.slot j).order.kind = .arm a →
      (t.slot j).gateTarget = (s.slot j).gateTarget
      ∧ (∀ time, .loss time ∈ (s.slot j).gateEvents → .loss time ∈ (t.slot j).gateEvents)
      ∧ ∀ k, (s.slot j).gateTarget = some k → (t.slot k).state = .closing →
        (s.slot k).state = .closing ∨ ∃ time, .loss time ∈ (t.slot j).gateEvents

theorem Slot.GoesOn.refl (x : Slot) : x.GoesOn x :=
  ⟨rfl, .rfl, id, fun h => ⟨h, fun _ _ => ⟨rfl, fun _ => id⟩⟩⟩

theorem Slot.GoesOn.of_eq {x y : Slot} (h : y = x) : x.GoesOn y := h ▸ .refl x

theorem Slot.GoesOn.trans {x y z : Slot} (h : x.GoesOn y) (h' : y.GoesOn z) : x.GoesOn z := by
  refine ⟨h'.order.trans h.order, h'.free.trans h.free, fun hz => h.closing (h'.closing hz),
    fun hz => ?_⟩
  obtain ⟨hy, hyz⟩ := h'.gated hz
  obtain ⟨hx, hxy⟩ := h.gated hy
  refine ⟨hx, fun a ha => ?_⟩
  obtain ⟨htarget, hloss⟩ := hxy a ha
  obtain ⟨htarget', hloss'⟩ := hyz a (h.order ▸ ha)
  exact ⟨htarget'.trans htarget, fun time hm => hloss' time (hloss time hm)⟩

/-- A slot that keeps its order and is neither FREE, CLOSING nor GATED afterwards goes on. -/
theorem Slot.GoesOn.of_state {x y : Slot} (ho : y.order = x.order) (hx : x.state ≠ .free)
    (hf : y.state ≠ .free) (hc : y.state ≠ .closing) (hg : y.state ≠ .gated) : x.GoesOn y :=
  ⟨ho, iff_of_false hf hx, fun h => absurd h hc, fun h => absurd h hg⟩

/-- A slot that keeps its order, its state and its gate goes on. -/
theorem Slot.GoesOn.of_same {x y : Slot} (ho : y.order = x.order) (hs : y.state = x.state)
    (ht : y.gateTarget = x.gateTarget) (he : y.gateEvents = x.gateEvents) : x.GoesOn y :=
  ⟨ho, by rw [hs], fun h => hs ▸ h, fun h => ⟨hs ▸ h, fun _ _ => ⟨ht, fun _ hm => he ▸ hm⟩⟩⟩

theorem Slot.GoesOn.of_essence {x y : Slot} (h : y.essence = x.essence) : x.GoesOn y :=
  .of_same (congrArg Slot.order h : y.essence.order = x.essence.order)
    (congrArg Slot.state h : y.essence.state = x.essence.state)
    (congrArg Slot.gateTarget h : y.essence.gateTarget = x.essence.gateTarget)
    (congrArg Slot.gateEvents h : y.essence.gateEvents = x.essence.gateEvents)

theorem Slot.goesOn_hear (x : Slot) (i : Fin 32) (e : GateEvent) : x.GoesOn (x.hear i e) := by
  unfold Slot.hear
  split
  · exact ⟨rfl, .rfl, id, fun h => ⟨h, fun _ _ => ⟨rfl, fun _ hm => List.mem_append_left _ hm⟩⟩⟩
  · exact .refl x

theorem Continues.of_goesOn {s t : State} (h : ∀ j, (s.slot j).GoesOn (t.slot j)) :
    Continues s t := by
  refine ⟨fun j => (h j).order, fun j => (h j).free, fun j hg => ?_⟩
  obtain ⟨hg, hgate⟩ := (h j).gated hg
  refine ⟨hg, fun a ha => ?_⟩
  obtain ⟨htarget, hloss⟩ := hgate a ha
  exact ⟨htarget, hloss, fun k _ hc => .inl ((h k).closing hc)⟩

theorem Continues.refl (s : State) : Continues s s := .of_goesOn fun _ => .refl _

theorem Continues.trans {s t u : State} (h : Continues s t) (h' : Continues t u) :
    Continues s u := by
  refine ⟨fun j => (h'.order j).trans (h.order j), fun j => (h'.free j).trans (h.free j),
    fun j hg => ?_⟩
  obtain ⟨hg, harm'⟩ := h'.gated j hg
  obtain ⟨hg, harm⟩ := h.gated j hg
  refine ⟨hg, fun a ha => ?_⟩
  obtain ⟨htarget', hloss', hlink'⟩ := harm' a (h.order j ▸ ha)
  obtain ⟨htarget, hloss, hlink⟩ := harm a ha
  refine ⟨htarget'.trans htarget, fun time hm => hloss' time (hloss time hm), fun k hk hc => ?_⟩
  rcases hlink' k (htarget.trans hk) hc with hc | hm
  · rcases hlink k hk hc with hc | ⟨time, hm⟩
    · exact .inl hc
    · exact .inr ⟨time, hloss' time hm⟩
  · exact .inr hm

section
variable (s : State) {i : Fin 32}

theorem Continues.of_slots {s t : State} (h : t.slots = s.slots) : Continues s t :=
  .of_goesOn fun j => by rw [State.slot_congr j h]; exact .refl _

theorem Continues.setSlot {y : Slot} (h : (s.slot i).GoesOn y) : Continues s (s.setSlot i y) := by
  refine .of_goesOn fun j => ?_
  rw [State.slot_setSlot]
  split
  next e => rw [e]; exact h
  · exact .refl _

theorem State.continues_noteRequest : Continues s (s.noteRequest i) := by
  obtain ⟨y, hy, h⟩ := s.noteRequest_asked i
  rw [h]
  exact .setSlot s (.of_essence hy.essence)

theorem Ends.slot_self {s t : State} {reason : EndReason} {time : Timestamp}
    (h : Ends s t i reason time) : (t.slot i).essence = (s.endedRecord i reason time).essence :=
  h.1.essence

theorem State.endedRecord_order (reason : EndReason) (time : Timestamp) :
    (s.endedRecord i reason time).order = (s.slot i).order := by
  unfold State.endedRecord; split <;> rfl

theorem State.endedRecord_state (reason : EndReason) (time : Timestamp) :
    (s.endedRecord i reason time).state = .closing := by
  unfold State.endedRecord; split <;> rfl

theorem Ends.order {s t : State} {reason : EndReason} {time : Timestamp}
    (h : Ends s t i reason time) : (t.slot i).order = (s.slot i).order :=
  (congrArg Slot.order h.slot_self :
    (t.slot i).essence.order = (s.endedRecord i reason time).essence.order).trans
    (s.endedRecord_order reason time)

theorem Ends.state {s t : State} {reason : EndReason} {time : Timestamp}
    (h : Ends s t i reason time) : (t.slot i).state = .closing :=
  (congrArg Slot.state h.slot_self :
    (t.slot i).essence.state = (s.endedRecord i reason time).essence.state).trans
    (s.endedRecord_state reason time)

theorem FollowersHear.slot {s t : State} {e : GateEvent} (h : FollowersHear s t i e) {j : Fin 32}
    (hj : j ≠ i) : t.slot j = (s.slot j).hear i e := by
  obtain ⟨hlinked, hother⟩ := h j hj
  by_cases hl : (s.slot j).LinksTo i
  · rw [hlinked hl, Slot.hear_of_linksTo i e hl]
  · rw [hother hl, Slot.hear_of_not_linksTo i e hl]

/-- Another slot hears at most of the loss (R45, R56). -/
theorem Ends.slot_other {s t : State} {reason : EndReason} {time : Timestamp}
    (h : Ends s t i reason time) {j : Fin 32} (hj : j ≠ i) :
    t.slot j = (s.slot j).hear i (.loss time) := by
  obtain ⟨-, hothers, -⟩ := h
  exact hothers.slot hj

/-- An order that ends goes on, and its followers hear of the loss (R45, R56). -/
theorem Ends.continues {s t : State} {reason : EndReason} {time : Timestamp}
    (h : Ends s t i reason time) (hi : (s.slot i).state ≠ .free) : Continues s t := by
  have hother : ∀ {j}, j ≠ i → (s.slot j).GoesOn (t.slot j) := fun hj => by
    rw [h.slot_other hj]; exact Slot.goesOn_hear _ _ _
  refine ⟨fun j => ?order, fun j => ?free, fun j hg => ?gated⟩
  case order =>
    by_cases e : j = i
    · rw [e, h.order]
    · exact (hother e).order
  case free =>
    by_cases e : j = i
    · rw [e, h.state]; exact iff_of_false nofun hi
    · exact (hother e).free
  case gated =>
    have e : j ≠ i := fun e => by rw [e, h.state] at hg; cases hg
    obtain ⟨hg, hgate⟩ := (hother e).gated hg
    refine ⟨hg, fun a ha => ?_⟩
    obtain ⟨htarget, hloss⟩ := hgate a ha
    refine ⟨htarget, hloss, fun k hk hc => ?_⟩
    by_cases ek : k = i
    · subst ek
      refine .inr ⟨time, ?_⟩
      rw [h.slot_other e, Slot.hear_of_linksTo k _ ⟨hg, hk⟩]
      exact List.mem_append_right _ (List.mem_singleton_self _)
    · exact .inl ((hother ek).closing hc)

theorem State.continues_closeSlot (hi : (s.slot i).state ≠ .free) (reason : EndReason)
    (time : Timestamp) : Continues s (s.closeSlot i reason time) :=
  (s.closeSlot_ends i reason time).continues hi

theorem State.continues_endFiring : Continues s (s.endFiring i) := by
  unfold State.endFiring
  dsimp only
  split
  next he =>
    obtain ⟨hrun, -⟩ := (Slot.ending_iff _).1 he
    split
    · exact s.continues_closeSlot (by rw [hrun]; decide) _ _
    · refine Continues.trans (t := s.setSlot i
        { s.slot i with intervalTimer := none, nextDue := none }) ?_ (State.continues_noteRequest _)
      exact .setSlot s (.of_same rfl rfl rfl rfl)
  · exact .refl s

theorem Slot.goesOn_raiseDue (x : Slot) : x.GoesOn x.raiseDue := by
  rw [Slot.raiseDue_eq]; exact .of_same rfl rfl rfl rfl

theorem State.continues_scanDue : Continues s (s.scanDue i) := by
  have hraise := (s.slot i).goesOn_raiseDue
  unfold State.scanDue
  dsimp only
  split
  · refine .trans ?_ (State.continues_endFiring _)
    exact .setSlot s (hraise.trans (.of_same rfl rfl rfl rfl))
  · exact .trans (Continues.setSlot s hraise) (.of_slots rfl)

/-- A fire from whatever record `y` of the slot's order: the order goes on in RUNNING (R32). -/
theorem State.continues_setSlot_fire {y : Slot} (ho : y.order = (s.slot i).order)
    (hi : (s.slot i).state ≠ .free) (cause : Cause) (onset time : Timestamp) :
    Continues s ((s.setSlot i y).fire i cause onset time) := by
  unfold State.fire
  refine .trans (.of_goesOn fun j => ?_) (State.continues_scanDue _)
  rw [State.tellFollowers_slot, State.slot_setSlot]
  refine .trans ?_ (Slot.goesOn_hear _ _ _)
  split
  next e =>
    rw [e, State.slot_setSlot_self]
    exact .of_state ho hi nofun nofun nofun
  next e => exact .of_eq (s.slot_setSlot_ne i j y e)

theorem State.continues_fire (hi : (s.slot i).state ≠ .free) (cause : Cause)
    (onset time : Timestamp) : Continues s (s.fire i cause onset time) := by
  have h := s.continues_setSlot_fire rfl hi cause onset time
  rwa [State.setSlot_slot_self] at h

/-- The entry to the watch leaves no ARM in GATED (R18), and a SAMPLE has no watch. -/
theorem State.continues_enterWatch (hi : (s.slot i).state ≠ .free) (time : Timestamp) :
    Continues s (s.enterWatch i time) := by
  have hwatch : ∀ {y : Slot} {w}, y.order = (s.slot i).order → y.state = .watching w →
      Continues s (s.setSlot i y) := fun ho hs =>
    .setSlot s (.of_state ho hi (by rw [hs]; nofun) (by rw [hs]; nofun) (by rw [hs]; nofun))
  unfold State.enterWatch State.conditionTrue
  dsimp only
  split
  next delay hk =>
    refine .setSlot s ⟨rfl, .rfl, id, fun hg => ⟨hg, fun a ha => ?_⟩⟩
    rw [hk] at ha; cases ha
  · simp only [State.setSlot_setSlot, State.slot_setSlot_self]
    split
    · split
      · exact hwatch rfl rfl
      · split
        · exact s.continues_setSlot_fire (by rfl) hi _ _ _
        · exact hwatch rfl rfl
    · exact hwatch rfl rfl

/-- The firing counted, the order goes on in the watch or in its next firing (R54). -/
theorem State.continues_returnToWatch (hi : (s.slot i).state = .running) :
    Continues s (s.returnToWatch i) := by
  unfold State.returnToWatch
  refine Continues.trans (t := s.setSlot i _) ?_ (State.continues_enterWatch _ ?_ _)
  · exact .setSlot s (.of_same rfl rfl rfl rfl)
  · rw [State.slot_setSlot_self]; show (s.slot i).state ≠ .free; rw [hi]; nofun

theorem State.continues_afterResolved : Continues s (s.afterResolved i) := by
  unfold State.afterResolved
  dsimp only
  refine .trans (s.continues_endFiring (i := i)) (.trans ?_ (State.continues_noteRequest _))
  split
  · exact State.continues_scanDue _
  · exact .refl _

end

end Sys2Proof.Machine
end

/-! ## The moves a step is made of -/

section
namespace Sys2Proof.Machine

/-! ### Moves -/

/-- No order is held while one is read, and the counter of order numbers is below its limit while an
order is read or held (R111, R116). -/
def State.Numbered (s : State) : Prop :=
  (s.fetch.state = .holding → s.fetch.read = none)
    ∧ (s.fetch.read ≠ none ∨ s.fetch.state = .holding → s.run.orderNumber ≠ 0xFFFFFFFF)

/-- The slot holds an order that has not fired yet, or waits for its next firing (R17, R40). -/
def Slot.Waits (x : Slot) : Prop :=
  x.state = .gated ∨ (∃ w, x.state = .watching w) ∨ x.state = .delaying

/-- The oldest result `r` of `s` has been stored or dropped and counted in `u` (R51, R95, R96). -/
structure TakesResult (s u : State) (r : ScanResult) : Prop where
  head : s.sched.staging.head? = some r
  control : u.control = s.control
  sched : u.sched = { s.sched with staging := s.sched.staging.tail }
  other : ∀ j, j ≠ r.slot → u.slot j = s.slot j
  slot : ∃ page stored dropped,
    stored + dropped = (s.slot r.slot).stored + (s.slot r.slot).dropped + 1
    ∧ (u.slot r.slot).essence =
      { s.slot r.slot with
        openPage := page
        inStaging := (s.slot r.slot).inStaging - 1
        stored := stored
        dropped := dropped
        resolved := (s.slot r.slot).resolvedAfter r.firingIndex }.essence

/-- What a command may do at once to the orders, their gates and their scans. A command is a sequence
of moves. -/
inductive Move (s : State) : State → Prop
  /-- Nothing that the invariants of orders, gates and scans read of the slots. -/
  | quiet (t : State) (essence : t.essence = s.essence)
      (faulted : s.run.runState = .faulted → t.run.runState = .faulted)
      (numbered : s.Numbered → t.Numbered ∧ s.run.orderNumber ≤ t.run.orderNumber) : Move s t
  /-- The card enters FAULTED (R152). -/
  | faults (code : FaultCode) : Move s (s.enterFaulted code)
  /-- Every slot becomes FREE and every scan is discarded (R148, R153, R154). -/
  | empties (t : State) (essence : t.essence = State.reset.essence) (read : t.fetch.read = none)
      (state : t.fetch.state ≠ .holding) : Move s t
  /-- An order ends for another reason than its last firing (R56). -/
  | ends (i : Fin 32) (reason : EndReason) (time : Timestamp) (free : (s.slot i).state ≠ .free)
      (closing : (s.slot i).state ≠ .closing) (reason_ne : reason ≠ .ok) :
      Move s (s.closeSlot i reason time)
  /-- A CANCEL ends its target, a firing of which may complete first (R59, R61). -/
  | cancels (i : Fin 32) (o : HeldOrder) (holding : s.fetch.state = .holding)
      (free : (s.slot i).state ≠ .free) (closing : (s.slot i).state ≠ .closing) :
      Move s (((s.completeFiring i).takeAndAnswer o .ok).closeSlot i .cancelled s.now)
  /-- A slot changes within the watch (R20 to R22). -/
  | rewatches (i : Fin 32) (y : Slot) (w : WatchState) (before : ∃ w, (s.slot i).state = .watching w)
      (after : y.essence = { s.slot i with state := .watching w }.essence) : Move s (s.setSlot i y)
  /-- A waiting order fires (R32). -/
  | fires (i : Fin 32) (cause : Cause) (onset time : Timestamp) (waits : (s.slot i).Waits) :
      Move s (s.fire i cause onset time)
  /-- A gate opens (R46). -/
  | opens (i : Fin 32) (time : Timestamp) (gated : (s.slot i).state = .gated) :
      Move s (s.enterWatch i time)
  /-- A firing that is not the last completes (R54). -/
  | returns (i : Fin 32) (awaits : s.AwaitsCompletion i) : Move s (s.returnToWatch i)
  /-- A slot that asks and has no page has its page done (R101). -/
  | settlesPage (i : Fin 32) (live : s.Live) : Move s (s.setSlot i (s.slot i).pageSettled)
  /-- The last firing of an order is counted (R57). -/
  | completes (i : Fin 32) (can : s.canComplete i = true) :
      Move s (s.setSlot i { s.slot i with firings := (s.slot i).firings + 1, handOn := .completed })
  /-- A slot that has handed on everything becomes FREE (R57). -/
  | frees (i : Fin 32) (live : s.Live) (handedOn : (s.slot i).HandedOn)
      (links : ∀ j, ¬ (s.slot j).LinksTo i) : Move s (s.setSlot i Slot.free)
  /-- A scan of a grid becomes due (R64, R67). -/
  | scanDue (i : Fin 32) (running : (s.slot i).state = .running)
      (interval : (s.slot i).order.interval ≠ 0) (timer : (s.slot i).intervalTimer ≠ none) :
      Move s (s.scanDue i)
  /-- The head of the Due Queue is granted (R73). -/
  | grants (live : s.Live) (idle : s.sched.conversion = none) : Move s s.grantHead
  /-- The scan in conversion ends (R82). -/
  | scanEnds (c d : Conversion) (live : s.Live) (converting : s.sched.conversion = some c)
      (slot : d.slot = c.slot) (index : d.firingIndex = c.firingIndex) : Move s (s.endScan d)
  /-- A result leaves the Staging Buffer, and its slot takes the resolution (R51, R53, R65). -/
  | resolves (u : State) (r : ScanResult) (takes : TakesResult s u r)
      (closing : (s.slot r.slot).closingPage = none) : Move s (u.afterResolved r.slot)
  /-- The close of a page begins (R98). -/
  | closeBegins (i : Fin 32) (p : OpenPage) (flags : PageFlags) (requested : Bool)
      (page : (s.slot i).openPage = some p) (asks : requested = true → (s.slot i).Asks) :
      Move s (s.beginClose i p flags requested)
  /-- The close of a page is taken (R98). -/
  | closeTaken (i : Fin 32) (c : ClosingPage) (y : Slot) (page : (s.slot i).closingPage = some c)
      (after : y.essence =
        { s.slot i with
          closingPage := none
          handOn := if c.requested then .pageDone else (s.slot i).handOn }.essence) :
      Move s (s.setSlot i y)
  /-- An order is taken and admitted (R41 to R44). -/
  | admits (i : Fin 32) (order : OrderCopy) (target : Option (Fin 32)) (may : s.mayTake = true)
      (free : (s.slot i).state = .free) (tag : ∀ j, ¬ s.Holds j order.tag)
      (number : order.number = s.nextOrderNumber)
      (gate : ∀ k, target = some k → (s.slot k).state ≠ .free ∧ (s.slot k).state ≠ .closing) :
      Move s (s.takeHeld.giveSlot i order target)

/-- A sequence of moves. -/
abbrev Moves : State → State → Prop := Relation.ReflTransGen Move

/-- If the result is a next state, moves lead to it. -/
def Moving (s : State) (r : Result) : Prop := ∀ t, r = .next t → Moves s t

/-! ### Quiet moves -/

/-- All that the invariants of orders, gates and scans read of a state. -/
def State.record (s : State) :
    ((Fin 32 → Slot) × (Fin 32 → Share)) × RunState × BitVec 32 × FetchState × Bool :=
  (s.essence, s.control)

section
variable {s t : State}

theorem State.essence_of_record (h : t.record = s.record) : t.essence = s.essence :=
  congrArg Prod.fst h

theorem State.control_of_record (h : t.record = s.record) : t.control = s.control :=
  congrArg Prod.snd h

theorem State.runState_of_control (h : t.control = s.control) : t.run.runState = s.run.runState :=
  congrArg Prod.fst h

theorem State.orderNumber_of_control (h : t.control = s.control) :
    t.run.orderNumber = s.run.orderNumber :=
  congrArg (fun c => c.2.1) h

theorem State.numbered_of_control (h : t.control = s.control) (hs : s.Numbered) : t.Numbered := by
  have hnumber := State.orderNumber_of_control h
  have hstate : t.fetch.state = s.fetch.state := congrArg (fun c => c.2.2.1) h
  have hread : t.fetch.read = none ↔ s.fetch.read = none := by
    have : t.fetch.read.isSome = s.fetch.read.isSome := congrArg (fun c => c.2.2.2) h
    rw [← Option.not_isSome_iff_eq_none, ← Option.not_isSome_iff_eq_none, this]
  unfold State.Numbered
  rw [hnumber, hstate, Ne, hread]
  exact hs

/-- A state of the same record is one quiet move away. -/
theorem Moves.still (h : t.record = s.record) : Moves s t := by
  have hc := State.control_of_record h
  refine .single (.quiet t (State.essence_of_record h) (fun hf => ?_) fun hn => ⟨?_, ?_⟩)
  · rw [State.runState_of_control hc, hf]
  · exact State.numbered_of_control hc hn
  · rw [State.orderNumber_of_control hc]; exact BitVec.le_refl _

/-- A change of the Order Fetch Unit after which no order is held and none is read that was not. -/
theorem Moves.fetch (he : t.essence = s.essence) (hr : t.run = s.run)
    (hstate : t.fetch.state ≠ .holding) (hread : t.fetch.read ≠ none → s.fetch.read ≠ none) :
    Moves s t := by
  refine .single (.quiet t he (fun hf => by rw [hr, hf]) fun ⟨_, hn⟩ =>
    ⟨⟨fun h => absurd h hstate, ?_⟩, ?_⟩)
  · rintro (h | h)
    · rw [hr]; exact hn (.inl (hread h))
    · exact absurd h hstate
  · rw [hr]; exact BitVec.le_refl _

theorem Moving.next (h : Moves s t) : Moving s (.next t) := by rintro _ ⟨⟩; exact h

theorem Moving.same : Moving s (.next s) := .next .refl

theorem Moving.whenever {ready : Bool} (h : ready = true → Moves s t) :
    Moving s (s.whenever ready t) := by
  refine .next ?_
  split
  next hr => exact h hr
  · exact .refl

theorem Moving.still (h : t.record = s.record) : Moving s (.next t) := .next (.still h)

theorem Moving.whenever_still {ready : Bool} (h : t.record = s.record) :
    Moving s (s.whenever ready t) :=
  .whenever fun _ => .still h

end

/-! ### What leaves the record alone -/

section
variable (s : State) (i : Fin 32)

/-- The slots and the scans in the units are all that the essence reads. -/
theorem State.essence_ext {s t : State} (h : ∀ j, (t.slot j).essence = (s.slot j).essence)
    (hs : t.sched = s.sched) : t.essence = s.essence :=
  Prod.ext (funext h) (congrArg Scheduler.share hs)

theorem State.record_setSlot {y : Slot} (h : y.essence = (s.slot i).essence) :
    (s.setSlot i y).record = s.record := by
  refine Prod.ext (State.essence_ext (fun j => ?_) rfl) rfl
  rw [State.slot_setSlot]
  split
  next e => rw [e, h]
  · rfl

theorem State.record_noteRequest : (s.noteRequest i).record = s.record := by
  obtain ⟨y, hy, h⟩ := s.noteRequest_asked i
  rw [h, s.record_setSlot i hy.essence]

theorem State.record_withEvents (e : EventLogic) : (s.withEvents e).record = s.record := by
  rw [State.withEvents_eventsBecome]; rfl

theorem State.record_setFlag (f : EventFlag) : (s.setFlag f).record = s.record :=
  s.record_withEvents _

theorem State.record_refuseWrite : s.refuseWrite.record = s.record := s.record_setFlag _

theorem State.record_signalDone : s.signalDone.record = s.record := State.record_setFlag _ _

theorem State.record_moderate : s.moderate.record = s.record := by
  unfold State.moderate
  dsimp only
  split
  · exact s.record_signalDone
  · rfl

theorem State.record_flushModeration : s.flushModeration.record = s.record := by
  unfold State.flushModeration
  split
  · rfl
  · exact s.record_signalDone

theorem State.record_takeNotice : s.takeNotice.record = s.record := by
  unfold State.takeNotice; split <;> rfl

theorem State.record_writeRecord : s.writeRecord.record = s.record := by
  unfold State.writeRecord
  split
  · rfl
  · dsimp only
    split
    · exact (State.record_setFlag _ _).trans (State.record_moderate _)
    · exact State.record_moderate _

theorem State.record_poolData (d : Descriptor) :
    (if d.bad then s.poolAnswered.reportBad d.ident
      else s.poolAnswered.cacheDescriptor d).record = s.record := by
  split <;> rfl

theorem State.record_fenceIfEmpty : s.fenceIfEmpty.record = s.record := by
  unfold State.fenceIfEmpty; split <;> rfl

/-- New lines offer at most a line event to the slots (R6, R8). -/
theorem State.record_commitLines (v : Vector Line 16) (sameMoment : Bool) :
    (s.commitLines v sameMoment).record = s.record := by
  unfold State.commitLines State.makeLineEvent
  dsimp only
  split
  · rfl
  · split
    · refine Prod.ext (State.essence_ext (fun j => ?_) rfl) rfl
      exact (congrArg Slot.essence (State.slot_mapSlots _ j _)).trans (Slot.essence_offerJoined _ _ _)
    · refine Prod.ext (State.essence_ext (fun j => ?_) rfl) rfl
      exact (congrArg Slot.essence (State.slot_mapSlots _ j _)).trans (Slot.essence_offer _ _)

theorem State.record_retimeLines (mask : LineWord) (times : Fin 16 → Byte) :
    (s.retimeLines mask times).record = s.record :=
  s.record_commitLines _ _

theorem State.record_resumeLines : s.resumeLines.record = s.record :=
  State.record_commitLines _ _ _

/-- The end of a stall marks work and moves none (R105). -/
theorem State.record_endStall : s.endStall.record = s.record := by
  refine Prod.ext (Prod.ext (funext fun j => ?_) (funext fun j => ?_)) ?_
  · show (s.endStall.slot j).essence = _
    rw [State.endStall_slot]
    split
    · exact Slot.essence_holdWork _
    · rfl
  · show s.endStall.sched.share j = s.sched.share j
    simp only [Scheduler.share, State.endStall_due, State.endStall_conversion, State.endStall_staging]
    split
    · simp [List.filter_map, Function.comp_def, ScanResult.holdWork]
    · rfl
  · show s.endStall.control = s.control
    simp [State.control]

theorem Conversion.share_eq (o : Option Conversion) (f : Conversion → Conversion) (i : Fin 32)
    (hslot : ∀ c, (f c).slot = c.slot) (hindex : ∀ c, (f c).firingIndex = c.firingIndex) :
    ((o.map f).filter fun c => c.slot == i).map Conversion.firingIndex =
      (o.filter fun c => c.slot == i).map Conversion.firingIndex := by
  cases o with
  | none => rfl
  | some c =>
    simp only [Option.map_some, Option.filter, hslot]
    split <;> simp [hindex]

/-- A microsecond advances timers alone (R144). -/
theorem State.record_tick : s.tick.record = s.record := by
  have hlines : s.tickLines.record = s.record := rfl
  have hblocks : ∀ u : State, u.tickBlocks.record = u.record := fun u => by
    refine Prod.ext (Prod.ext (funext fun j => ?_) (funext fun j => ?_)) ?_
    · show (u.tickBlocks.slot j).essence = _
      rw [State.tickBlocks_slot]
      exact Slot.essence_tick _ _ _
    · show u.tickBlocks.sched.share j = u.sched.share j
      unfold Scheduler.share
      congr 1
      exact Conversion.share_eq _ _ j (fun _ => rfl) fun _ => rfl
    · show (_, _, _, Option.isSome (Option.map _ _)) = _
      rw [Option.isSome_map]; rfl
  unfold State.tick
  split
  · rfl
  · rfl
  · exact (hblocks _).trans hlines
  · exact (hblocks _).trans hlines
  · rfl

end

end Sys2Proof.Machine
end

/-! ## Every step is made of moves -/

section
namespace Sys2Proof.Machine

variable {s : State} {i : Fin 32}

/-! ### Orders and their slots -/

theorem lineEventTaken_moves : Moving s (execLineEventTaken i s) := by
  refine .whenever fun hc => ?_
  have hw : ∃ w, (s.slot i).state = .watching w := by
    rw [State.canTakeLineEvent, Bool.and_eq_true, Bool.and_eq_true, Slot.isWatching_iff] at hc
    obtain ⟨⟨-, hw⟩, -⟩ := hc
    exact hw
  unfold State.takeLineEvent
  dsimp only
  set t := s.setSlot i { s.slot i with offered := (s.slot i).offered.tail } with ht
  have htaken : Moves s t := .still (s.record_setSlot i rfl)
  have hti : t.slot i = { s.slot i with offered := (s.slot i).offered.tail } :=
    s.slot_setSlot_self i _
  have hwt : ∃ w, (t.slot i).state = .watching w := by rwa [hti]
  have hjudged : ∀ y w, y.essence = { t.slot i with state := .watching w }.essence →
      Moves s (t.setSlot i y) := fun y w hy => htaken.tail (.rewatches i y w hwt hy)
  split
  · unfold State.judgeLineEvent State.conditionTrue
    split
    · exact htaken
    · exact htaken
    · exact hjudged _ .trueWait rfl
    · exact hjudged _ .trueWait rfl
    · exact hjudged _ .trueWait rfl
    · split
      · exact htaken.tail (.fires i _ _ _ (.inr (.inl hwt)))
      · exact hjudged _ .hold rfl
  · exact htaken

theorem holdExpiry_moves : Moving s (execHoldExpiry i s) := by
  refine .whenever fun hc => .single (.fires i _ _ _ (.inr (.inl ⟨.hold, ?_⟩)))
  rw [State.canHoldExpire, Bool.and_eq_true, Bool.and_eq_true, beq_iff_eq] at hc
  obtain ⟨⟨-, hs⟩, -⟩ := hc
  exact hs

theorem delayExpiry_moves : Moving s (execDelayExpiry i s) := by
  refine .whenever fun hc => .single (.fires i _ _ _ (.inr (.inr ?_)))
  rw [State.canDelayExpire, Bool.and_eq_true, Bool.and_eq_true, beq_iff_eq] at hc
  obtain ⟨⟨-, hs⟩, -⟩ := hc
  exact hs

theorem Slot.Waits.ne_free {x : Slot} (h : x.Waits) : x.state ≠ .free := by
  rcases h with h | ⟨w, h⟩ | h <;> rw [h] <;> nofun

theorem Slot.Waits.ne_closing {x : Slot} (h : x.Waits) : x.state ≠ .closing := by
  rcases h with h | ⟨w, h⟩ | h <;> rw [h] <;> nofun

theorem armExpiry_moves : Moving s (execArmExpiry i s) := by
  refine .whenever fun hc => ?_
  have hw : (s.slot i).Waits := by
    rw [State.canArmExpire, Bool.and_eq_true, Bool.and_eq_true, Bool.or_eq_true,
      Slot.isWatching_iff, beq_iff_eq] at hc
    obtain ⟨⟨-, hw⟩, -⟩ := hc
    exact hw.elim (fun h => .inr (.inl h)) .inl
  split
  · exact .single (.fires i _ _ _ hw)
  · exact .single (.ends i _ _ hw.ne_free hw.ne_closing nofun)

theorem Slot.gated_of_nextGateEvent {x : Slot} {e : GateEvent} (h : x.nextGateEvent = some e) :
    x.state = .gated := by
  unfold Slot.nextGateEvent at h
  split at h
  next hg => exact eq_of_beq hg
  · cases h

theorem gateOpening_moves : Moving s (execGateOpening i s) := by
  refine .whenever fun hc => .single (.opens i _ ?_)
  have hopen : (s.slot i).openingTime.isSome = true := ((Bool.and_eq_true _ _).mp hc).2
  unfold Slot.openingTime at hopen
  split at hopen
  next h => exact Slot.gated_of_nextGateEvent h
  all_goals cases hopen

theorem gateLoss_moves : Moving s (execGateLoss i s) := by
  refine .whenever fun hc => ?_
  have hg : (s.slot i).state = .gated := by
    have hloss : (s.slot i).lossTime.isSome = true := ((Bool.and_eq_true _ _).mp hc).2
    unfold Slot.lossTime at hloss
    split at hloss
    next h => exact Slot.gated_of_nextGateEvent h
    all_goals cases hloss
  exact .single (.ends i _ _ (by rw [hg]; nofun) (by rw [hg]; nofun) nofun)

theorem firedRecordTaken_moves : Moving s (execFiredRecordTaken i s) := by
  refine .whenever fun hc => ?_
  have hlive : s.Live := by
    rw [State.canTakeFired, Bool.and_eq_true, Bool.and_eq_true, s.isLive_iff] at hc
    obtain ⟨⟨hlive, -⟩, -⟩ := hc
    exact hlive
  unfold State.takeFired
  split
  · exact .refl
  next r _ =>
    set t := (s.postRecord (.fired r)).setSlot i { s.slot i with pendingFired := none } with ht
    have htaken : Moves s t := .still ((s.postRecord (.fired r)).record_setSlot i rfl)
    have hsettled := htaken.tail (.settlesPage i hlive)
    rw [ht, State.setSlot_setSlot, State.slot_setSlot_self] at hsettled
    exact hsettled.trans (Moves.still (State.record_noteRequest _ i))

theorem firingCompletion_moves : Moving s (execFiringCompletion i s) := by
  unfold execFiringCompletion
  split
  next hr => exact .next (.single (.returns i ((s.canReturn_iff i).1 hr)))
  · exact .whenever fun hc => .single (.completes i hc)

theorem orderDoneTaken_moves : Moving s (execOrderDoneTaken i s) := by
  refine .whenever fun hc => ?_
  simp only [State.canTakeOrderDone, Bool.and_eq_true, Bool.not_eq_true', s.isLive_iff,
    Slot.handedOn_iff, s.hasFollower_false_iff] at hc
  obtain ⟨⟨⟨hlive, -⟩, hon⟩, hlinks⟩ := hc
  have hposted : Moves s (s.postRecord (.orderDone (s.slot i).orderDone)) := .still rfl
  exact (hposted.tail (.frees i hlive hon hlinks)).trans (Moves.still (State.record_fenceIfEmpty _))

theorem intervalTimerExpiry_moves : Moving s (execIntervalTimerExpiry i s) := by
  refine .whenever fun hc => ?_
  simp only [State.canIntervalExpire, Bool.and_eq_true, beq_iff_eq, bne_iff_ne, Ne,
    Slot.intervalTime_eq_zero, timerReached_iff] at hc
  obtain ⟨⟨⟨-, hrun⟩, hinterval⟩, n, htimer, -⟩ := hc
  have hgrid : Moves s (s.setSlot i (s.slot i).nextGridPoint) :=
    .still (s.record_setSlot i (by simp [Slot.nextGridPoint, Slot.essence, htimer]))
  refine hgrid.tail (.scanDue i ?_ ?_ ?_) <;> rw [State.slot_setSlot_self]
  · exact hrun
  · exact hinterval
  · nofun

theorem completeFiring_moves : Moves s (s.completeFiring i) := by
  unfold State.completeFiring
  split
  next hr => exact .single (.returns i ((s.canReturn_iff i).1 hr))
  · exact .refl

/-! ### Scans and pages -/

/-- The model's test for a grant is the three conditions of R72 in RUNNING or STOPPING. -/
theorem State.canGrant_iff :
    s.canGrant = true ↔ s.Live ∧ s.sched.conversion = none ∧ s.sched.staging.length < 4
      ∧ s.sched.due ≠ [] := by
  have hsize : Config.stagingSize = 4 := rfl
  simp only [State.canGrant, hsize, Bool.and_eq_true, s.isLive_iff, Option.isNone_iff_eq_none,
    decide_eq_true_iff, Bool.not_eq_true', List.isEmpty_eq_false_iff, and_assoc]

theorem grant_moves : Moving s (execGrant s) := by
  refine .whenever fun hc => .single ?_
  obtain ⟨hlive, hidle, -⟩ := s.canGrant_iff.1 hc
  exact .grants hlive hidle

theorem State.convertedScan_eq_some {c : Conversion} (h : s.convertedScan = some c) :
    s.Live ∧ s.sched.conversion = some c := by
  unfold State.convertedScan at h
  split at h
  next hl => exact ⟨s.isLive_iff.1 hl, (Option.filter_eq_some_iff.1 h).1⟩
  · cases h

theorem State.settledScan_eq_some {c : Conversion} (h : s.settledScan = some c) :
    s.sched.conversion = some c := by
  unfold State.settledScan at h
  split at h
  · exact (Option.filter_eq_some_iff.1 h).1
  · cases h

/-- A conversion of the same slot and firing takes the place of the one under way. -/
theorem State.record_conversion {c d : Conversion} (hc : s.sched.conversion = some c)
    (hslot : d.slot = c.slot) (hindex : d.firingIndex = c.firingIndex) :
    State.record { s with sched.conversion := some d } = s.record := by
  refine Prod.ext (Prod.ext rfl (funext fun j => ?_)) rfl
  show Scheduler.share _ j = s.sched.share j
  simp only [Scheduler.share, hc, Option.filter, hslot]
  split <;> simp [hindex]

theorem entrySettled_moves : Moving s (execEntrySettled s) := by
  unfold execEntrySettled
  split
  · exact .same
  next c hc => exact .still (State.record_conversion (State.settledScan_eq_some hc) rfl rfl)

theorem Conversion.addCode_slot (c : Conversion) (code : BitVec 14) :
    (c.addCode code).slot = c.slot := by
  unfold Conversion.addCode; split <;> rfl

theorem Conversion.addCode_firingIndex (c : Conversion) (code : BitVec 14) :
    (c.addCode code).firingIndex = c.firingIndex := by
  unfold Conversion.addCode; split <;> rfl

theorem conversionDone_moves (nanovolts : Int) : Moving s (execConversionDone nanovolts s) := by
  unfold execConversionDone
  split
  · exact .same
  next c hc =>
    obtain ⟨hlive, hconv⟩ := State.convertedScan_eq_some hc
    refine .next ?_
    split
    · exact .single (.scanEnds c _ hlive hconv (c.addCode_slot _) (c.addCode_firingIndex _))
    · exact .still (State.record_conversion hconv (c.addCode_slot _) (c.addCode_firingIndex _))

theorem takesResult_afterStore {r : ScanResult} (p : OpenPage) (cache : List Descriptor)
    (hr : s.sched.staging.head? = some r) : TakesResult s (s.afterStore r p cache) r where
  head := hr
  control := rfl
  sched := rfl
  other j hj := s.slot_setSlot_ne _ _ _ hj
  slot := by
    refine ⟨some (s.pageWith p r), (s.slot r.slot).stored + 1, (s.slot r.slot).dropped, by ring, ?_⟩
    exact (congrArg Slot.essence (State.slot_setSlot_self s r.slot _)).trans rfl

theorem takesResult_afterDrop {r : ScanResult} (hr : s.sched.staging.head? = some r) :
    TakesResult s (s.afterDrop r) r where
  head := hr
  control := rfl
  sched := rfl
  other j hj := s.slot_setSlot_ne _ _ _ hj
  slot := by
    refine ⟨(s.slot r.slot).openPage, (s.slot r.slot).stored, (s.slot r.slot).dropped + 1, by ring, ?_⟩
    exact (congrArg Slot.essence (State.slot_setSlot_self s r.slot _)).trans rfl

theorem resultTaken_moves : Moving s (execResultTaken s) := by
  unfold execResultTaken
  split
  · exact .same
  next r hr =>
    obtain ⟨hhead, hclosing⟩ : s.sched.staging.head? = some r
        ∧ ∀ j, (s.slot j).closingPage = none := by
      unfold State.nextResult at hr
      split at hr
      · obtain ⟨hhead, hmay⟩ := Option.filter_eq_some_iff.1 hr
        exact ⟨hhead, ((s.mayWork_iff _).1 hmay).1⟩
      · cases hr
    refine .next ?_
    unfold State.placeResult
    split
    next p hp =>
      split
      · rw [State.storeResult_eq]
        exact .single (.resolves _ r (takesResult_afterStore p _ hhead) (hclosing _))
      · exact .single (.closeBegins _ p _ _ hp nofun)
    next d ds _ _ =>
      rw [State.storeResult_eq]
      exact .single (.resolves _ r (takesResult_afterStore d.openPage ds hhead) (hclosing _))
    · rw [State.dropResult_eq]
      exact .single (.resolves _ r (takesResult_afterDrop hhead) (hclosing _))

theorem pageCloseRequest_moves : Moving s (execPageCloseRequest i s) := by
  unfold execPageCloseRequest
  split
  next p hp =>
    unfold State.requestedPage at hp
    split at hp
    next hc =>
      rw [Bool.and_eq_true, Bool.and_eq_true, Slot.wantsClose_iff] at hc
      obtain ⟨⟨-, hasks⟩, -⟩ := hc
      exact .next (.single (.closeBegins i p _ _ hp fun _ => hasks))
    · cases hp
  · refine .whenever fun hc => .single (.settlesPage i ?_)
    simp only [State.canSkipClose, Bool.and_eq_true, s.isLive_iff] at hc
    obtain ⟨⟨⟨hlive, -⟩, -⟩, -⟩ := hc
    exact hlive

theorem flushExpiry_moves : Moving s (execFlushExpiry i s) := by
  unfold execFlushExpiry
  split
  · exact .same
  next p hp =>
    unfold State.expiredPage at hp
    split at hp
    · exact .next (.single (.closeBegins i p _ _ (Option.filter_eq_some_iff.1 hp).1 nofun))
    · cases hp

theorem pageClose_moves : Moving s (execPageClose i s) := by
  unfold execPageClose
  split
  · exact .same
  next c hc =>
    obtain ⟨hlive, hpage⟩ : s.Live ∧ (s.slot i).closingPage = some c := by
      unfold State.closablePage at hc
      split at hc
      next h =>
        rw [Bool.and_eq_true, Bool.and_eq_true, s.isLive_iff] at h
        obtain ⟨⟨hlive, -⟩, -⟩ := h
        exact ⟨hlive, hc⟩
      · cases hc
    refine .next ?_
    unfold State.closePage Slot.pageClosed
    dsimp only
    set t := (s.endStall.issueWrite .page c.page.descriptor.address _).postRecord _ with ht
    have hstalled : Moves s t := .still (s.record_endStall)
    have htlive : t.Live := by
      have : t.run = s.run := s.endStall_run
      unfold State.Live; rw [this]; exact hlive
    have htpage : (t.slot i).closingPage = some c := by
      have : t.slot i = _ := s.endStall_slot i
      rw [this]; split
      · exact hpage
      · exact hpage
    have htaken := hstalled.tail (.closeTaken i c
      { t.slot i with
        closingPage := none
        pageSequence := (t.slot i).pageSequence + 1
        pagesPosted := (t.slot i).pagesPosted + 1
        handOn := if c.requested then .pageDone else (t.slot i).handOn } htpage rfl)
    have hsettled := htaken.tail (.settlesPage i htlive)
    rw [State.setSlot_setSlot, State.slot_setSlot_self] at hsettled
    exact hsettled

theorem unusedReturn_moves : Moving s (execUnusedReturn s) := by
  unfold execUnusedReturn
  split
  · exact .same
  · exact .whenever_still rfl

/-! ### Orders read and taken -/

theorem orderReadIssue_moves : Moving s (execOrderReadIssue s) := by
  refine .whenever fun hc => ?_
  simp only [State.canReadOrder, Bool.and_eq_true, bne_iff_ne] at hc
  obtain ⟨-, hnumber⟩ := hc
  exact .single (.quiet _ rfl id fun _ => ⟨⟨nofun, fun _ => hnumber⟩, BitVec.le_refl _⟩)

theorem orderReadData_moves (tag : Nat) (data : BitVec 512) :
    Moving s (execOrderReadData tag data s) := by
  unfold execOrderReadData
  split
  · exact .same
  next r hr =>
    have hread : s.fetch.read ≠ none := by
      unfold State.orderAnswered at hr
      split at hr
      · rw [(Option.filter_eq_some_iff.1 hr).1]; nofun
      · cases hr
    split
    · refine .next ?_
      split
      · exact .fetch rfl rfl nofun fun h => absurd rfl h
      · exact .single (.quiet _ rfl id fun hn =>
          ⟨⟨fun _ => rfl, fun _ => hn.2 (.inl hread)⟩, BitVec.le_refl _⟩)
    · exact .next (.single (.quiet _ rfl id fun hn =>
        ⟨⟨fun _ => rfl, fun _ => hn.2 (.inl hread)⟩, BitVec.le_refl _⟩))

theorem State.mayTake_holding (h : s.mayTake = true) : s.fetch.state = .holding := by
  obtain ⟨-, hhold, -⟩ := s.mayTake_iff.1 h
  exact hhold

/-- Taking the held order claims the next number, which the counter still has (R116). -/
theorem State.numbered_takeHeld (h : s.fetch.state = .holding) (hn : s.Numbered) :
    s.takeHeld.Numbered ∧ s.takeHeld.fetch.read = none
      ∧ s.run.orderNumber < s.nextOrderNumber := by
  have hread := hn.1 h
  have hlimit := hn.2 (.inr h)
  refine ⟨⟨nofun, fun hc => ?_⟩, hread, ?_⟩
  · exact absurd hread (hc.resolve_right nofun)
  · unfold State.nextOrderNumber
    bv_omega

theorem takeHeld_moves (h : s.fetch.state = .holding) : Moves s s.takeHeld :=
  .single (.quiet _ rfl id fun hn =>
    have ⟨hnumbered, _, hlt⟩ := s.numbered_takeHeld h hn
    ⟨hnumbered, BitVec.le_of_lt hlt⟩)

theorem takeAndAnswer_moves (h : s.fetch.state = .holding) (o : HeldOrder) (status : Status) :
    Moves s (s.takeAndAnswer o status) :=
  (takeHeld_moves h).trans (Moves.still rfl)

theorem State.gateCheck_target {o : OrderImage} {k : Fin 32}
    (h : s.gateCheck o = some (some k)) :
    (s.slot k).state ≠ .free ∧ (s.slot k).state ≠ .closing := by
  unfold State.gateCheck at h
  split at h
  · cases h
  · split at h
    · cases h
    next tag _ j hj =>
      split at h
      · cases h
      next hc =>
        cases h
        exact ⟨(s.holds_of_holderOf hj).1, by simpa using hc⟩

theorem takeSlotOrder_moves {kind : Byte} :
    Moving s (s.whenever (s.maySlot kind) s.takeSlotOrder) := by
  refine .whenever fun hc => ?_
  have hmay : s.mayTake = true := by
    simp only [State.maySlot, Bool.and_eq_true] at hc
    obtain ⟨⟨⟨hmay, -⟩, -⟩, -⟩ := hc
    exact hmay
  have hhold := State.mayTake_holding hmay
  unfold State.takeSlotOrder
  split
  next o j _ hj =>
    unfold State.takeForSlot
    split
    · exact takeAndAnswer_moves hhold o _
    next hholder =>
      have htag : ∀ j, ¬ s.Holds j o.image.tag :=
        (s.holderOf_none _).1 (Option.not_isSome_iff_eq_none.1 hholder)
      split
      · exact takeAndAnswer_moves hhold o _
      next target ht =>
        exact .single (.admits j _ target hmay ((s.lowestFree_some j).1 hj).1 htag rfl
          fun k hk => State.gateCheck_target (hk ▸ ht))
  · exact .refl

theorem State.takeable_mayTake {p : HeldOrder → Bool} {o : HeldOrder} (h : s.takeable p = some o) :
    s.mayTake = true := by
  unfold State.takeable at h
  split at h
  next hm => exact ((Bool.and_eq_true _ _).mp hm).1
  · cases h

end Sys2Proof.Machine
end

/-! ## Orders answered, run state transitions and the window, as moves -/

section
namespace Sys2Proof.Machine

variable {s t : State} {i : Fin 32}

/-! ### Orders answered at once -/

theorem takeable_moves {p : HeldOrder → Bool} {o : HeldOrder} (h : s.takeable p = some o)
    (status : Status) : Moves s (s.takeAndAnswer o status) :=
  takeAndAnswer_moves (State.mayTake_holding (State.takeable_mayTake h)) o status

theorem State.cancelTarget_eq_some {tag : BitVec 16} (h : s.cancelTarget tag = some i) :
    s.Holds i tag ∧ (s.slot i).state ≠ .closing := by
  obtain ⟨hholder, hclosing⟩ := Option.filter_eq_some_iff.1 h
  exact ⟨s.holds_of_holderOf hholder, bne_iff_ne.1 hclosing⟩

theorem cancel_moves : Moving s (execCancel s) := by
  unfold execCancel
  split
  · exact .same
  next o ho =>
    refine .next ?_
    unfold State.takeCancel
    split
    · exact takeable_moves ho _
    next j hj =>
      obtain ⟨⟨hfree, -⟩, hclosing⟩ := State.cancelTarget_eq_some hj
      have hhold := State.mayTake_holding (State.takeable_mayTake ho)
      exact .single (.cancels j o hhold hfree hclosing)

theorem lines_moves : Moving s (execLines s) := by
  unfold execLines
  split
  · exact .same
  next o ho =>
    exact .next ((takeable_moves ho _).trans (Moves.still (State.record_retimeLines _ _ _)))

theorem badOrder_moves : Moving s (execBadOrder s) := by
  unfold execBadOrder
  split
  · exact .same
  next o ho => exact .next (takeable_moves ho _)

theorem fence_moves : Moving s (execFence s) := by
  unfold execFence
  split
  · exact .same
  next o ho =>
    have hhold : s.fetch.state = .holding := by
      unfold State.takeableFence at ho
      split at ho
      next hm => exact State.mayTake_holding hm
      · cases ho
    refine .next ((takeHeld_moves hhold).trans ?_)
    refine (Moves.fetch (s := s.takeHeld) (t := { s.takeHeld with
      fetch.state := .fenced, fetch.fence := some (s.newFence o) }) rfl rfl nofun id).trans ?_
    exact Moves.still (State.record_fenceIfEmpty _)

theorem fenceDoneTaken_moves : Moving s (execFenceDoneTaken s) := by
  unfold execFenceDoneTaken
  split
  · exact .same
  next r _ =>
    refine .next ?_
    by_cases hr : s.isRunning = true
    · rw [if_pos hr]; exact .fetch rfl rfl nofun id
    · rw [if_neg hr]; exact .still rfl

/-! ### Run state transitions -/

/-- A change of the run state from another state than FAULTED. -/
theorem Moves.transition (he : t.essence = s.essence) (hf : s.run.runState ≠ .faulted)
    (hn : t.run.orderNumber = s.run.orderNumber) (hr : t.fetch = s.fetch) : Moves s t := by
  refine .single (.quiet t he (fun h => absurd h hf) fun hs =>
    ⟨?_, by rw [hn]; exact BitVec.le_refl _⟩)
  unfold State.Numbered
  rw [hn, hr]
  exact hs

theorem endStart_moves (hf : s.run.runState ≠ .faulted) (result : SetupResult) :
    Moves s (s.endStart result) := by
  rw [State.endStart_startEnded]
  exact Moves.transition rfl hf rfl rfl

theorem beginStart_moves (hf : s.run.runState ≠ .faulted) : Moves s s.beginStart := by
  unfold State.beginStart
  dsimp only
  split
  · exact Relation.ReflTransGen.trans (Moves.transition (s := s) (t := { s with
      run.runState := .starting, run.faultCode := .none, run.setupResult := .ok,
      window.orderTail := 0, window.poolTail := 0, window.doneHead := 0,
      window.run := true }) rfl hf rfl rfl) (endStart_moves (by nofun) _)
  · exact .transition rfl hf rfl rfl

theorem setupData_moves (hf : s.run.runState ≠ .faulted) (c : SetupCopy) :
    Moves s (s.setupData c) := by
  unfold State.setupData
  split
  · exact endStart_moves hf _
  · split
    · unfold State.enterRunning
      dsimp only
      refine Relation.ReflTransGen.trans ?_ (Moves.still (State.record_retimeLines _ _ _))
      exact .single (.empties _ rfl rfl nofun)
    · exact endStart_moves hf _

theorem moves_resetBlocks : Moves s s.resetBlocks := .single (.empties _ rfl rfl nofun)

theorem hostReset_moves : Moves s s.resetByHost := by
  unfold State.resetByHost
  split
  · exact moves_resetBlocks.trans (Moves.still (State.record_resumeLines _))
  · exact moves_resetBlocks

theorem powerReset_moves : Moves s s.resetByPower := by
  unfold State.resetByPower
  refine moves_resetBlocks.trans (Moves.still ?_)
  exact State.record_commitLines _ _ _

theorem leaveFaulted_moves : Moves s s.leaveFaulted := by
  unfold State.leaveFaulted
  refine Relation.ReflTransGen.trans ?_ (Moves.still (State.record_resumeLines _))
  exact .single (.empties _ rfl rfl nofun)

theorem foldl_moves {f : State → Fin 32 → State} (hf : ∀ s i, Moves s (f s i)) (is : List (Fin 32))
    (s : State) : Moves s (is.foldl f s) := by
  induction is generalizing s with
  | nil => exact .refl
  | cons i is ih => exact (hf s i).trans (ih _)

theorem haltSlot_moves (lossFirst : BitVec 32) (s : State) (i : Fin 32) :
    Moves s (s.haltSlot lossFirst i) := by
  unfold State.haltSlot
  dsimp only
  split
  next hc =>
    rw [Bool.and_eq_true, Slot.occupied_iff, bne_iff_ne] at hc
    refine .single (.ends i _ _ hc.1 hc.2 ?_)
    unfold Slot.haltReason
    dsimp only
    split <;> nofun
  · exact .refl

theorem beginStop_moves (lossFirst : BitVec 32) (hf : s.run.runState ≠ .faulted) :
    Moves s (s.beginStop lossFirst) := by
  have hfirings : Moves s (slotNumbers.foldl State.completeFiring s) :=
    foldl_moves (f := State.completeFiring) (fun _ _ => completeFiring_moves) slotNumbers s
  have hmonitor := State.monitor_foldl (fun s i => s.monitor_completeFiring i) slotNumbers s
  unfold State.beginStop
  generalize slotNumbers.foldl State.completeFiring s = u at hfirings hmonitor ⊢
  have hrun : u.run.runState = s.run.runState := congrArg Prod.snd hmonitor
  have hstop : Moves u ({ u with run.runState := .stopping, window.run := false,
                                 fetch.state := .off, fetch.held := none }.settleFence .halted) := by
    refine .single (.quiet _ rfl (fun h => absurd (hrun.symm.trans h) hf) fun hn =>
      ⟨⟨nofun, fun h => ?_⟩, BitVec.le_refl _⟩)
    exact hn.2 (.inl (h.resolve_right nofun))
  exact (hfirings.trans hstop).trans (foldl_moves (haltSlot_moves lossFirst) slotNumbers _)

theorem writeRun1_moves : Moves s s.writeRun1 := by
  unfold State.writeRun1
  split
  next h => exact beginStart_moves (by rw [h]; nofun)
  · exact .still rfl
  · exact .refl
  · exact .refl
  · exact .still s.record_refuseWrite

theorem writeRun0_moves (lossFirst : BitVec 32) : Moves s (s.writeRun0 lossFirst) := by
  unfold State.writeRun0
  split
  · exact .still rfl
  · exact .still rfl
  next h => exact beginStop_moves lossFirst (by rw [h]; nofun)
  · exact .still s.record_refuseWrite
  · exact leaveFaulted_moves

theorem stopComplete_moves : Moving s (execStopComplete s) := by
  refine .whenever fun hc => ?_
  have hf : s.run.runState ≠ .faulted := by
    rw [eq_of_beq ((Bool.and_eq_true _ _).mp hc).1]; nofun
  refine Relation.ReflTransGen.trans ?_
    (Moves.still ((State.record_setFlag _ _).trans (State.record_flushModeration _)))
  exact Moves.transition rfl hf rfl rfl

/-! ### The register window -/

theorem writeOrderTail_moves (value : BitVec 32) : Moves s (s.writeOrderTail value) := by
  unfold State.writeOrderTail
  split
  · exact .still s.record_refuseWrite
  · exact .still rfl
  · unfold State.setOrderTail
    dsimp only
    split
    · split
      · refine .still (Prod.ext rfl ?_)
        show (_, _, _, Option.isSome (Option.map _ _)) = _
        rw [Option.isSome_map]; rfl
      · exact .fetch rfl rfl nofun id
      all_goals exact .still rfl
    · exact .still rfl

theorem writePoolTail_moves (value : BitVec 32) : Moves s (s.writePoolTail value) := by
  unfold State.writePoolTail
  split
  · exact .still s.record_refuseWrite
  all_goals exact .still rfl

theorem writeDoneHead_moves (value : BitVec 32) : Moves s (s.writeDoneHead value) := by
  unfold State.writeDoneHead
  split
  · exact .still s.record_refuseWrite
  · exact .still rfl
  · split
    · exact .still rfl
    · exact .still s.record_refuseWrite

theorem writeControl_moves (value : BitVec 32) : Moves s (s.writeControl value) := by
  unfold State.writeControl
  split
  · exact hostReset_moves
  · split
    · exact writeRun1_moves
    · exact writeRun0_moves 0

theorem writeWindow_moves (offset : BitVec 6) (width : AccessWidth) (value : BitVec 32) :
    Moves s (s.writeWindow offset width value) := by
  unfold State.writeWindow
  split
  · exact .still s.record_refuseWrite
  split
  · exact writeControl_moves value
  split
  · exact .still (s.record_withEvents _)
  split
  · exact .still (s.record_withEvents _)
  split
  · exact .still rfl
  split
  · exact .still rfl
  split
  · exact writeOrderTail_moves value
  split
  · exact writePoolTail_moves value
  split
  · exact writeDoneHead_moves value
  · exact .still s.record_refuseWrite

/-! ### Every command, and a microsecond -/

theorem faults_moves {ready : Bool} (code : FaultCode) :
    Moving s (s.whenever ready (s.enterFaulted code)) :=
  .whenever fun _ => .single (.faults code)

theorem completionTimeout_moves (tag : Nat) : Moving s (execCompletionTimeout tag s) := by
  unfold execCompletionTimeout
  split
  next h => exact .next (endStart_moves (State.not_faulted_of_setupReading h) _)
  · split
    · exact .next (.single (.faults _))
    · exact faults_moves _

theorem rawLevelChange_moves (k : Fin 16) (level sameMoment : Bool) :
    Moving s (execRawLevelChange k level sameMoment s) := by
  unfold execRawLevelChange
  dsimp only
  split
  · exact .same
  · split
    · exact .still rfl
    · exact .still (s.record_commitLines _ _)

/-- Every command is a sequence of moves. -/
theorem exec_moves (c : Instr) : Moving s (exec c s) := by
  cases c with
  | rawLevelChange k level sameMoment => exact rawLevelChange_moves k level sameMoment
  | qualificationTimerExpiry k sameMoment => exact .whenever_still (s.record_commitLines _ _)
  | lineEventTaken i => exact lineEventTaken_moves
  | holdExpiry i => exact holdExpiry_moves
  | armExpiry i => exact armExpiry_moves
  | delayExpiry i => exact delayExpiry_moves
  | gateOpening i => exact gateOpening_moves
  | gateLoss i => exact gateLoss_moves
  | firedRecordTaken i => exact firedRecordTaken_moves
  | firingCompletion i => exact firingCompletion_moves
  | orderDoneTaken i => exact orderDoneTaken_moves
  | intervalTimerExpiry i => exact intervalTimerExpiry_moves
  | grant => exact grant_moves
  | entrySettled => exact entrySettled_moves
  | conversionDone nanovolts => exact conversionDone_moves nanovolts
  | poolReadIssue => exact .whenever_still rfl
  | poolReadData tag data => exact .whenever_still (s.record_poolData _)
  | resultTaken => exact resultTaken_moves
  | pageCloseRequest i => exact pageCloseRequest_moves
  | flushExpiry i => exact flushExpiry_moves
  | pageClose i => exact pageClose_moves
  | unusedReturn => exact unusedReturn_moves
  | noticeTaken => exact .whenever_still s.record_takeNotice
  | recordWrite => exact .whenever_still s.record_writeRecord
  | moderationTimerExpiry => exact .whenever_still s.record_signalDone
  | orderReadIssue => exact orderReadIssue_moves
  | orderReadData tag data => exact orderReadData_moves tag data
  | arm => exact takeSlotOrder_moves
  | sample => exact takeSlotOrder_moves
  | cancel => exact cancel_moves
  | lines => exact lines_moves
  | fence => exact fence_moves
  | badOrder => exact badOrder_moves
  | fenceLimitExpiry => exact .whenever_still rfl
  | fenceDoneTaken => exact fenceDoneTaken_moves
  | runWritten1 => exact .next writeRun1_moves
  | runWritten0 lossFirst => exact .next (writeRun0_moves lossFirst)
  | hostReset => exact .next hostReset_moves
  | eventsWrite width value => exact .next (writeWindow_moves _ _ _)
  | eventMaskWrite width value => exact .next (writeWindow_moves _ _ _)
  | orderTailWrite value => exact .next (writeOrderTail_moves value)
  | poolTailWrite value => exact .next (writePoolTail_moves value)
  | doneHeadWrite value => exact .next (writeDoneHead_moves value)
  | registerWrite offset width value => exact .next (writeWindow_moves _ _ _)
  | setupReadData tag data =>
    exact .whenever fun hr => setupData_moves (State.not_faulted_of_setupReading hr) _
  | setupReadError tag =>
    exact .whenever fun hr => endStart_moves (State.not_faulted_of_setupReading hr) _
  | stopComplete => exact stopComplete_moves
  | fetchError tag => exact faults_moves _
  | poolError tag => exact faults_moves _
  | pageError => exact faults_moves _
  | postError => exact faults_moves _
  | completionTimeout tag => exact completionTimeout_moves tag
  | linkDown => exact faults_moves _
  | powerOnReset => exact .next powerReset_moves
  | linkReset => exact .next powerReset_moves
  | configurationSpaceWrite busMaster msi => exact .still rfl

/-- Every step is a sequence of moves: a command's, or the passing of a microsecond (log entry 1). -/
theorem step_moves (h : step s = .next t) : Moves s t := by
  unfold step at h
  split at h
  · refine Moving.next (s := s) ?_ t h
    split
    · exact .refl
    · exact .still s.record_tick
  next c rest _ =>
    have hqueue : Moves s (s.withPending rest) := .still rfl
    exact hqueue.trans (exec_moves c t h)

/-- What every move keeps, every step keeps. -/
theorem kept_of_step {P : State → Prop} (hm : ∀ s t, P s → Move s t → P t) (h : P s)
    (hstep : step s = .next t) : P t := by
  have hmoves := step_moves hstep
  clear hstep
  induction hmoves with
  | refl => exact h
  | tail _ hmove ih => exact hm _ _ ih hmove

end Sys2Proof.Machine
end

/-! ## Tags and gates (O54, O56) -/

section
namespace Sys2Proof.Machine

variable {s t u : State} {i : Fin 32}

/-! ### What a move leaves of the orders -/

theorem Continues.of_essence (h : t.essence = s.essence) : Continues s t :=
  .of_goesOn fun j => .of_essence (congrFun (congrArg Prod.fst h) j)

theorem State.slot_free_of_reset (h : t.essence = State.reset.essence) (j : Fin 32) :
    (t.slot j).state = .free := by
  have hj : (t.slot j).essence = (State.reset.slot j).essence :=
    congrFun (congrArg Prod.fst h) j
  rw [State.reset_slot] at hj
  exact (congrArg Slot.state hj : (t.slot j).essence.state = Slot.free.essence.state)

theorem TakesResult.continues {r : ScanResult} (h : TakesResult s u r) : Continues s u := by
  refine .of_goesOn fun j => ?_
  by_cases hj : j = r.slot
  · obtain ⟨page, stored, dropped, -, he⟩ := h.slot
    rw [hj]
    refine .trans (y := { s.slot r.slot with
      openPage := page
      inStaging := (s.slot r.slot).inStaging - 1
      stored := stored
      dropped := dropped
      resolved := (s.slot r.slot).resolvedAfter r.firingIndex }) ?_ (.of_essence he)
    exact .of_same rfl rfl rfl rfl
  · exact .of_eq (h.other j hj)

theorem Continues.grantHead (s : State) : Continues s s.grantHead := by
  unfold State.grantHead
  split
  · exact .refl s
  next d ds _ =>
    refine .trans (Continues.of_slots (t := { s with
      sched.due := ds, sched.conversion := some (s.startScan d) }) rfl) ?_
    exact .setSlot _ (.of_same rfl rfl rfl rfl)

theorem Slot.goesOn_pageSettled (x : Slot) : x.GoesOn x.pageSettled := by
  unfold Slot.pageSettled
  split
  · exact .of_same rfl rfl rfl rfl
  · exact .refl x

/-- Slot `i` is FREE and the held order is taken into it with the record `x`, a new tag, the next
number and, if it is GATED, the live slot `target` (R41 to R44); the order goes on from there to `t`. -/
structure Admits (s t : State) (i : Fin 32) (x : Slot) (target : Option (Fin 32)) : Prop where
  holding : s.fetch.state = .holding
  free : (s.slot i).state = .free
  tag : ∀ j, ¬ s.Holds j x.order.tag
  number : x.order.number = s.nextOrderNumber
  live : ∀ k, target = some k → (s.slot k).state ≠ .free ∧ (s.slot k).state ≠ .closing
  closing : x.state ≠ .closing
  gated : x.state = .gated → (∃ a, x.order.kind = .arm a) ∧ x.gateTarget = target ∧ target ≠ none
  control : t.control = s.takeHeld.control
  continues : Continues (s.takeHeld.setSlot i x) t

/-- An order given a slot stands in it, in GATED only if it is an ARM with a target (R43). -/
theorem State.continues_giveSlot (s : State) (i : Fin 32) (order : OrderCopy)
    (target : Option (Fin 32)) :
    ∃ x, x.order = order ∧ x.state ≠ .closing
      ∧ (x.state = .gated → (∃ a, order.kind = .arm a) ∧ x.gateTarget = target ∧ target ≠ none)
      ∧ Continues (s.setSlot i x) (s.giveSlot i order target) := by
  unfold State.giveSlot
  split
  next delay hk =>
    split
    · refine ⟨Slot.holding order .delaying, rfl, nofun, nofun, State.continues_fire _ ?_ _ _ _⟩
      rw [State.slot_setSlot_self]; nofun
    · exact ⟨{ Slot.holding order .delaying with delayTimer := some 0 }, rfl, nofun, nofun, .refl _⟩
  next a hk =>
    split
    next k =>
      exact ⟨{ Slot.holding order .gated with gateTarget := some k, armTimer := a.startTimer }, rfl,
        nofun, fun _ => ⟨⟨a, hk⟩, rfl, nofun⟩, .refl _⟩
    · refine ⟨{ Slot.holding order (.watching .trueWait) with armTimer := a.startTimer }, rfl, nofun,
        nofun, State.continues_enterWatch _ ?_ _⟩
      rw [State.slot_setSlot_self]; nofun

/-- What a move does to the orders: it empties every slot, frees one that no slot links to, admits an
order, or every order goes on. -/
inductive OrdersMove (s t : State) : Prop
  | empties (slots : ∀ j, (t.slot j).state = .free) (numbered : t.Numbered)
  | frees (i : Fin 32) (links : ∀ j, ¬ (s.slot j).LinksTo i) (frame : t = s.setSlot i Slot.free)
  | admits (i : Fin 32) (x : Slot) (target : Option (Fin 32)) (admits : Admits s t i x target)
  | goesOn (continues : Continues s t)
      (numbered : s.Numbered → t.Numbered ∧ s.run.orderNumber ≤ t.run.orderNumber)

/-- Orders that go on while the Order Fetch Unit stays as it is. -/
theorem OrdersMove.of_control (hc : Continues s t) (h : t.control = s.control) : OrdersMove s t :=
  .goesOn hc fun hn => ⟨State.numbered_of_control h hn, by
    rw [State.orderNumber_of_control h]; exact BitVec.le_refl _⟩

theorem OrdersMove.of_frame (hc : Continues s t) (h : t.frame = s.frame) : OrdersMove s t :=
  .of_control hc (State.control_of_frame h)

theorem OrdersMove.setSlot {y : Slot} (h : (s.slot i).GoesOn y) : OrdersMove s (s.setSlot i y) :=
  .of_frame (.setSlot s h) rfl

theorem State.continues_completeFiring (s : State) (i : Fin 32) :
    Continues s (s.completeFiring i) := by
  unfold State.completeFiring
  split
  next h =>
    obtain ⟨-, hrun, -⟩ := (s.canReturn_iff i).1 h
    exact s.continues_returnToWatch hrun
  · exact .refl s

theorem Move.ordersMove (h : Move s t) : OrdersMove s t := by
  cases h with
  | quiet _ he _ hn => exact .goesOn (.of_essence he) hn
  | faults code =>
    obtain ⟨-, -, ht⟩ := s.enterFaulted_entersFaulted code
    refine .goesOn (.of_slots (by rw [ht]; rfl)) fun ⟨_, hn⟩ => ?_
    rw [ht]
    exact ⟨⟨nofun, fun h => hn (.inl (h.resolve_right nofun))⟩, BitVec.le_refl _⟩
  | empties _ he hread hstate =>
    exact .empties (State.slot_free_of_reset he)
      ⟨fun _ => hread, fun h => absurd hread (h.resolve_right hstate)⟩
  | ends i reason time hfree _ _ =>
    exact .of_frame (s.continues_closeSlot hfree _ _) (s.frame_closeSlot i _ _)
  | cancels i o hhold hfree _ =>
    have hanswered : Continues s ((s.completeFiring i).takeAndAnswer o .ok) :=
      (s.continues_completeFiring i).trans (.of_slots rfl)
    have hclosed := State.control_of_frame
      (((s.completeFiring i).takeAndAnswer o .ok).frame_closeSlot i .cancelled s.now)
    have hcontrol := State.control_of_frame (s.frame_completeFiring i)
    have hholding : (s.completeFiring i).fetch.state = .holding :=
      (congrArg (fun c => c.2.2.1) hcontrol).trans hhold
    refine .goesOn (hanswered.trans (State.continues_closeSlot _ ?_ _ _)) fun hn => ?_
    · exact mt (hanswered.free i).1 hfree
    · obtain ⟨hnumbered, -, hlt⟩ :=
        State.numbered_takeHeld hholding (State.numbered_of_control hcontrol hn)
      refine ⟨State.numbered_of_control hclosed hnumbered, ?_⟩
      rw [State.orderNumber_of_control hclosed, ← State.orderNumber_of_control hcontrol]
      exact BitVec.le_of_lt hlt
  | rewatches i y w hbefore hafter =>
    obtain ⟨v, hv⟩ := hbefore
    refine .setSlot (.trans (y := { s.slot i with state := .watching w }) ?_ (.of_essence hafter))
    exact .of_state rfl (by rw [hv]; nofun) nofun nofun nofun
  | fires i _ _ _ hw => exact .of_frame (s.continues_fire hw.ne_free _ _ _) (s.frame_fire i _ _ _)
  | opens i time hg =>
    exact .of_frame (s.continues_enterWatch (by rw [hg]; nofun) time) (s.frame_enterWatch i time)
  | returns i hr =>
    obtain ⟨-, hrunning, -⟩ := hr
    exact .of_frame (s.continues_returnToWatch hrunning) (s.frame_returnToWatch i)
  | settlesPage i _ => exact .setSlot (Slot.goesOn_pageSettled _)
  | completes i _ => exact .setSlot (.of_same rfl rfl rfl rfl)
  | frees i _ _ hlinks => exact .frees i hlinks rfl
  | scanDue i _ _ _ => exact .of_frame s.continues_scanDue (s.frame_scanDue i)
  | grants _ _ => exact .of_control (.grantHead s) (by unfold State.grantHead; split <;> rfl)
  | scanEnds c d _ _ _ _ =>
    refine .of_control (.trans (t := s.setSlot d.slot { s.slot d.slot with
      inConversion := false, inStaging := (s.slot d.slot).inStaging + 1, missedRun := 0 })
      (.setSlot s ?_) (.of_slots rfl)) rfl
    exact .of_same rfl rfl rfl rfl
  | resolves u r htakes _ =>
    refine .of_control (htakes.continues.trans u.continues_afterResolved) ?_
    exact (State.control_of_frame (u.frame_afterResolved r.slot)).trans htakes.control
  | closeBegins i p flags requested _ _ =>
    refine .of_control (.trans (.setSlot s ?_) (.of_slots rfl)) rfl
    exact .of_same rfl rfl rfl rfl
  | closeTaken i c y _ hafter =>
    refine .setSlot (.trans (y := { s.slot i with
      closingPage := none
      handOn := if c.requested then .pageDone else (s.slot i).handOn }) ?_ (.of_essence hafter))
    exact .of_same rfl rfl rfl rfl
  | admits i order target hmay hfree htag hnumber hlive =>
    obtain ⟨x, rfl, hclosing, hgated, hcont⟩ := s.takeHeld.continues_giveSlot i order target
    exact .admits i x target ⟨State.mayTake_holding hmay, hfree, htag, hnumber, hlive, hclosing,
      hgated, State.control_of_frame (s.takeHeld.frame_giveSlot i _ _), hcont⟩

/-! ### Tags (R42) -/

/-- Slots that keep their orders or become FREE keep the tags distinct. -/
theorem TagsDistinct.of_orders (hd : TagsDistinct s) (h : ∀ j, (t.slot j).state ≠ .free →
    (s.slot j).state ≠ .free ∧ (t.slot j).order = (s.slot j).order) : TagsDistinct t := by
  intro i j hi hj ht
  obtain ⟨hsi, hoi⟩ := h i hi
  obtain ⟨hsj, hoj⟩ := h j hj
  exact hd i j hsi hsj (by rw [← hoi, ← hoj, ht])

theorem Continues.tagsDistinct (h : Continues s t) (hd : TagsDistinct s) : TagsDistinct t :=
  hd.of_orders fun j hj => ⟨mt (h.free j).2 hj, h.order j⟩

theorem TagsDistinct.setSlot_free (hd : TagsDistinct s) : TagsDistinct (s.setSlot i Slot.free) := by
  refine hd.of_orders fun j hj => ?_
  rw [State.slot_setSlot] at hj ⊢
  split at hj
  · exact absurd rfl hj
  next e => rw [if_neg e]; exact ⟨hj, rfl⟩

/-- A new order with a tag that no slot holds leaves the tags distinct. -/
theorem TagsDistinct.setSlot (hd : TagsDistinct s) {x : Slot} (h : ∀ j, ¬ s.Holds j x.order.tag) :
    TagsDistinct (s.setSlot i x) := by
  intro j k hj hk ht
  rw [State.slot_setSlot] at hj hk
  rw [State.slot_setSlot, State.slot_setSlot] at ht
  split at hj <;> split at hk
  next ej ek => rw [ej, ek]
  next ej ek => rw [if_pos ej, if_neg ek] at ht; exact absurd ⟨hk, ht.symm⟩ (h k)
  next ej ek => rw [if_neg ej, if_pos ek] at ht; exact absurd ⟨hj, ht⟩ (h j)
  next ej ek => rw [if_neg ej, if_neg ek] at ht; exact hd j k hj hk ht

theorem Move.tagsDistinct (h : Move s t) (hd : TagsDistinct s) : TagsDistinct t := by
  cases h.ordersMove with
  | empties hslots _ => exact fun i _ hi => absurd (hslots i) hi
  | frees i _ ht =>
    subst ht
    exact hd.setSlot_free
  | admits i x target ha =>
    exact ha.continues.tagsDistinct (TagsDistinct.setSlot (s := s.takeHeld) hd ha.tag)
  | goesOn hc _ => exact hc.tagsDistinct hd

/-- Settles O54, move by move: an order goes on with its tag, and is admitted only with a new one. -/
theorem everyStepKeepsTagsDistinct : Obligations.EveryStepKeepsTagsDistinct :=
  fun _ _ => kept_of_step fun _ _ hd hm => hm.tagsDistinct hd

/-! ### Gates (R44, R45, R57, R116) -/

theorem gatesLinkBackward_iff :
    GatesLinkBackward s ↔
      (∀ i, (s.slot i).state ≠ .free → (s.slot i).order.number ≤ s.run.orderNumber) ∧ s.Numbered
      ∧ ∀ j, (s.slot j).state = .gated →
        (∃ a, (s.slot j).order.kind = .arm a)
        ∧ ∃ k, (s.slot j).gateTarget = some k ∧ (s.slot k).state ≠ .free
            ∧ (s.slot k).order.number < (s.slot j).order.number
            ∧ ((s.slot k).state = .closing → ∃ time, GateEvent.loss time ∈ (s.slot j).gateEvents) := by
  unfold GatesLinkBackward State.Numbered
  simp only [and_assoc]

theorem GatesLinkBackward.continues (h : GatesLinkBackward s) (hc : Continues s t)
    (hn : t.Numbered) (hle : s.run.orderNumber ≤ t.run.orderNumber) : GatesLinkBackward t := by
  obtain ⟨hnumbers, -, hgates⟩ := gatesLinkBackward_iff.1 h
  refine gatesLinkBackward_iff.2 ⟨fun i hi => ?_, hn, fun j hj => ?_⟩
  · rw [hc.order]
    exact BitVec.le_trans (hnumbers i (mt (hc.free i).2 hi)) hle
  · obtain ⟨hsj, harm⟩ := hc.gated j hj
    obtain ⟨⟨a, ha⟩, k, hk, hkfree, hlt, hclosing⟩ := hgates j hsj
    obtain ⟨htarget, hloss, hlink⟩ := harm a ha
    refine ⟨⟨a, hc.order j ▸ ha⟩, k, htarget.trans hk, mt (hc.free k).1 hkfree,
      by rw [hc.order, hc.order]; exact hlt, fun hkc => ?_⟩
    rcases hlink k hk hkc with hkc | hm
    · obtain ⟨time, hm⟩ := hclosing hkc
      exact ⟨time, hloss time hm⟩
    · exact hm

/-- A slot that no slot links to becomes FREE. -/
theorem GatesLinkBackward.frees (h : GatesLinkBackward s) (hl : ∀ j, ¬ (s.slot j).LinksTo i) :
    GatesLinkBackward (s.setSlot i Slot.free) := by
  obtain ⟨hnumbers, hn, hgates⟩ := gatesLinkBackward_iff.1 h
  have hne : ∀ {j}, ((s.setSlot i Slot.free).slot j).state ≠ .free → j ≠ i := fun hj e => by
    subst e; rw [State.slot_setSlot_self] at hj; exact hj rfl
  refine gatesLinkBackward_iff.2 ⟨fun j hj => ?_, hn, fun j hj => ?_⟩
  · have e := hne hj
    rw [s.slot_setSlot_ne _ _ _ e] at hj ⊢
    exact hnumbers j hj
  · have e := hne (by rw [hj]; nofun)
    rw [s.slot_setSlot_ne _ _ _ e] at hj ⊢
    obtain ⟨harm, k, hk, hrest⟩ := hgates j hj
    have ek : k ≠ i := fun e => hl j ⟨hj, e ▸ hk⟩
    refine ⟨harm, k, hk, ?_⟩
    rw [s.slot_setSlot_ne _ _ _ ek]
    exact hrest

/-- An order admitted with the next number links to an order with a smaller one (R44, R116). -/
theorem GatesLinkBackward.admits {x : Slot} {target : Option (Fin 32)} (h : GatesLinkBackward s)
    (ha : Admits s t i x target) : GatesLinkBackward t := by
  obtain ⟨hnumbers, hn, hgates⟩ := gatesLinkBackward_iff.1 h
  obtain ⟨hnumbered, -, hlt⟩ := s.numbered_takeHeld ha.holding hn
  have hother : ∀ {j}, j ≠ i → (s.takeHeld.setSlot i x).slot j = s.slot j := fun e =>
    s.takeHeld.slot_setSlot_ne _ _ _ e
  have hself : (s.takeHeld.setSlot i x).slot i = x := s.takeHeld.slot_setSlot_self _ _
  have hoccupied : ∀ {k}, (s.slot k).state ≠ .free → k ≠ i := fun hk e => hk (e ▸ ha.free)
  have hadmitted : GatesLinkBackward (s.takeHeld.setSlot i x) := by
    refine gatesLinkBackward_iff.2 ⟨fun j hj => ?_, hnumbered, fun j hj => ?_⟩
    · by_cases e : j = i
      · rw [e, hself, ha.number]; exact BitVec.le_refl _
      · rw [hother e] at hj ⊢
        exact BitVec.le_trans (hnumbers j hj) (BitVec.le_of_lt hlt)
    · by_cases e : j = i
      · rw [e, hself] at hj ⊢
        obtain ⟨harm, htarget, hsome⟩ := ha.gated hj
        obtain ⟨k, hk⟩ := Option.ne_none_iff_exists'.1 hsome
        obtain ⟨hfree, hclosing⟩ := ha.live k hk
        refine ⟨harm, k, htarget.trans hk, ?_⟩
        rw [hother (hoccupied hfree), ha.number]
        refine ⟨hfree, BitVec.not_le.1 fun hle => ?_, fun h => absurd h hclosing⟩
        exact BitVec.not_le.2 hlt (BitVec.le_trans hle (hnumbers k hfree))
      · rw [hother e] at hj ⊢
        obtain ⟨harm, k, hk, hfree, hrest⟩ := hgates j hj
        refine ⟨harm, k, hk, ?_⟩
        rw [hother (hoccupied hfree)]
        exact ⟨hfree, hrest⟩
  refine hadmitted.continues ha.continues (State.numbered_of_control ha.control hnumbered) ?_
  rw [State.orderNumber_of_control ha.control]
  exact BitVec.le_refl _

theorem Move.gatesLinkBackward (hm : Move s t) (h : GatesLinkBackward s) : GatesLinkBackward t := by
  cases hm.ordersMove with
  | empties hslots hn =>
    exact gatesLinkBackward_iff.2 ⟨fun i hi => absurd (hslots i) hi, hn, fun j hj => by
      rw [hslots j] at hj; cases hj⟩
  | frees i hl ht => exact ht ▸ h.frees hl
  | admits i x target ha => exact h.admits ha
  | goesOn hc hn =>
    obtain ⟨-, hnumbers, -⟩ := gatesLinkBackward_iff.1 h
    obtain ⟨hnumbered, hle⟩ := hn hnumbers
    exact h.continues hc hnumbered hle

/-- Settles O56, move by move. -/
theorem everyStepKeepsGatesLinked : Obligations.EveryStepKeepsGatesLinked :=
  fun _ _ => kept_of_step fun _ _ h hm => hm.gatesLinkBackward h

end Sys2Proof.Machine
end

/-! ## The account of one slot (O57) -/

section
namespace Sys2Proof.Machine

/-! ### The account by the state of the slot -/

/-- The scans of a slot that are due and not resolved, when `w` of them wait in the Due Queue (R65). -/
def Slot.outstanding (x : Slot) (w : Nat) : Nat := w + (if x.inConversion then 1 else 0) + x.inStaging

/-- A slot whose order has no scan and no page. -/
structure Slot.Idle (x : Slot) (w : Nat) : Prop where
  outstanding : x.outstanding w = 0
  openPage : x.openPage = none
  closingPage : x.closingPage = none
  timer : x.intervalTimer = none

/-- The account of an order between its firings, or before its first (R52). -/
structure Slot.Rests (x : Slot) (w : Nat) : Prop extends x.Idle w where
  account : x.counted = x.becameDue
  firings : x.scanCount ≠ 0 → x.counted = BitVec.ofNat 32 (x.scanCount * x.firings)

/-- The account of an order in a firing (R52, R53, R63 to R67). -/
structure Slot.Runs (x : Slot) (w : Nat) : Prop where
  pages : x.closingPage ≠ none → x.openPage = none
  handOn : x.handOn ≠ .completed
  pageDone : x.handOn ≠ .pagePending →
    x.openPage = none ∧ x.closingPage = none ∧ x.scanCount ≠ 0 ∧ x.resolved = x.scanCount
  backToBack : x.order.interval = 0 → x.outstanding w ≤ 1 ∧ x.intervalTimer = none
  grid : x.scanCount ≠ 0 → x.resolved + x.outstanding w = x.dueCount ∧ x.dueCount ≤ x.scanCount
    ∧ (x.intervalTimer ≠ none → x.dueCount < x.scanCount)
  requested : ∀ c ∈ x.closingPage, c.requested = true →
    x.outstanding w = 0 ∧ x.scanCount ≠ 0 ∧ x.resolved = x.scanCount
  account : x.counted + BitVec.ofNat 32 (x.outstanding w) = x.becameDue
  firings : x.scanCount ≠ 0 → x.counted = BitVec.ofNat 32 (x.scanCount * x.firings + x.resolved)

/-- The account of an order that has ended (R52, R56, R57). -/
structure Slot.Closes (x : Slot) (w : Nat) : Prop where
  waiting : w = 0
  pages : x.closingPage ≠ none → x.openPage = none
  pageDone : x.handOn ≠ .pagePending →
    x.openPage = none ∧ x.closingPage = none ∧ x.outstanding w = 0
  timer : x.intervalTimer = none
  requested : ∀ c ∈ x.closingPage, c.requested = true → x.outstanding w = 0
  ok : x.endReason = some .ok → x.scanCount ≠ 0 ∧ x.outstanding w = 0
  account : x.counted + BitVec.ofNat 32 (x.outstanding w) = x.becameDue
  due : x.scanCount ≠ 0 → x.becameDue = BitVec.ofNat 32 (x.scanCount * x.firings)
    ∨ x.becameDue = BitVec.ofNat 32 (x.scanCount * x.firings + x.dueCount)
  firings : x.scanCount ≠ 0 → x.endReason = some .ok → x.counted = BitVec.ofNat 32
    (if x.handOn = .completed then x.scanCount * x.firings else x.scanCount * (x.firings + 1))

/-- The account of a slot in its state; at most one scan of it waits (R69). -/
def Slot.Balanced (x : Slot) (w : Nat) : Prop :=
  match x.state with
  | .free => x.Idle w
  | .gated | .watching _ | .delaying => x.Rests w
  | .running => w ≤ 1 ∧ x.Runs w
  | .closing => x.Closes w

section
variable {x : Slot} {w : Nat}

theorem Slot.balanced_of_free (h : x.state = .free) : x.Balanced w ↔ x.Idle w := by
  unfold Slot.Balanced; rw [h]

theorem Slot.balanced_of_waits (h : x.Waits) : x.Balanced w ↔ x.Rests w := by
  unfold Slot.Balanced; rcases h with h | ⟨v, h⟩ | h <;> rw [h]

theorem Slot.balanced_of_running (h : x.state = .running) :
    x.Balanced w ↔ w ≤ 1 ∧ x.Runs w := by
  unfold Slot.Balanced; rw [h]

theorem Slot.balanced_of_closing (h : x.state = .closing) : x.Balanced w ↔ x.Closes w := by
  unfold Slot.Balanced; rw [h]

theorem Slot.state_cases (x : Slot) :
    x.state = .free ∨ x.Waits ∨ x.state = .running ∨ x.state = .closing := by
  unfold Slot.Waits; cases x.state <;> simp

end

/-! ### The account of the model is the account by state -/

section
variable {s : State} {i : Fin 32}

theorem State.noEntry_iff : s.NoEntry i ↔ (s.sched.due.filter fun d => d.slot == i) = [] := by
  simp [State.NoEntry]

theorem Slot.eq_zero_of_outstanding {x : Slot} {w : Nat} (h : x.outstanding w = 0) :
    w = 0 ∧ x.inConversion = false ∧ x.inStaging = 0 := by
  unfold Slot.outstanding at h
  cases hc : x.inConversion <;> simp_all

/-- The invariant of O57 at one slot, its marks aside, is the account of the slot in its state. -/
theorem State.accounted_iff :
    s.Accounted i ↔ (s.slot i).Balanced (s.sched.due.filter fun d => d.slot == i).length := by
  have hentry : s.NoEntry i ↔ (s.sched.due.filter fun d => d.slot == i).length = 0 := by
    rw [State.noEntry_iff, List.length_eq_zero_iff]
  have hout : s.outstanding i
      = (s.slot i).outstanding (s.sched.due.filter fun d => d.slot == i).length := rfl
  have hcount : (s.slot i).order.scanCount.toNat = (s.slot i).scanCount := rfl
  unfold State.Accounted
  simp only [hout, hentry, hcount]
  generalize (s.sched.due.filter fun d => d.slot == i).length = w
  generalize s.slot i = x
  rcases x.state_cases with h | h | h | h
  case inl =>
    rw [Slot.balanced_of_free h]
    simp only [h]
    refine ⟨fun ⟨_, _, hnone, _, _, htimer, _⟩ => ?_, fun b => ?_⟩
    · obtain ⟨ho, hopen, hclosing⟩ := hnone nofun nofun
      exact ⟨ho, hopen, hclosing, htimer nofun⟩
    · obtain ⟨hw, -⟩ := Slot.eq_zero_of_outstanding b.outstanding
      exact ⟨by omega, fun _ => hw, fun _ _ => ⟨b.outstanding, b.openPage, b.closingPage⟩,
        fun _ => b.openPage, nofun, fun _ => b.timer, nofun, nofun, nofun, nofun, nofun, nofun,
        fun c hc => by (rw [b.closingPage] at hc; cases hc), nofun, fun hf => absurd rfl hf, nofun,
        fun _ => trivial⟩
  case inr.inl =>
    rw [Slot.balanced_of_waits h]
    rcases h with h | ⟨v, h⟩ | h
    all_goals
      simp only [h]
      refine ⟨fun ⟨_, _, hnone, _, _, htimer, _, _, _, _, _, _, _, _, haccount, _, hfirings⟩ => ?_,
        fun b => ?_⟩
      · obtain ⟨ho, hopen, hclosing⟩ := hnone nofun nofun
        refine ⟨⟨ho, hopen, hclosing, htimer nofun⟩, ?_, hfirings⟩
        have := haccount nofun
        rwa [ho, BitVec.add_zero] at this
      · obtain ⟨hw, -⟩ := Slot.eq_zero_of_outstanding b.outstanding
        refine ⟨by omega, fun _ => hw, fun _ _ => ⟨b.outstanding, b.openPage, b.closingPage⟩,
          fun _ => b.openPage, nofun, fun _ => b.timer, nofun, nofun, nofun, nofun, nofun, nofun,
          fun c hc => by (rw [b.closingPage] at hc; cases hc), nofun, fun _ => ?_, nofun, b.firings⟩
        rw [b.outstanding, b.account, BitVec.add_zero]
  case inr.inr.inl =>
    rw [Slot.balanced_of_running h]
    simp only [h]
    refine ⟨fun ⟨hw, _, _, hpages, hdone, _, hback, hgrid, hcont, hres, hon, _, hreq, _, hacc, _,
      hfir⟩ => ⟨hw, ?_⟩, fun ⟨hw, b⟩ => ?_⟩
    · refine ⟨hpages, hon trivial, fun c => ?_, fun c => hback c trivial,
        fun c => hgrid c trivial, fun c hc hr => ?_, hacc nofun, hfir⟩
      · have hn : x.scanCount ≠ 0 := fun hz => c (hcont hz trivial)
        obtain ⟨hopen, hclosing⟩ := hdone c (.inl trivial)
        exact ⟨hopen, hclosing, hn, hres hn trivial c⟩
      · obtain ⟨ho, hrun⟩ := hreq c hc hr
        exact ⟨ho, hrun trivial⟩
    · refine ⟨hw, fun c => absurd rfl c, fun c => absurd rfl c, b.pages, fun c _ => ?_,
        fun c => absurd rfl c, fun c _ => b.backToBack c, fun c _ => b.grid c, fun hz _ => ?_,
        fun _ _ c => ?_, fun _ => b.handOn, nofun, fun c hc hr => ?_, nofun, fun _ => b.account,
        nofun, b.firings⟩
      · obtain ⟨hopen, hclosing, -⟩ := b.pageDone c
        exact ⟨hopen, hclosing⟩
      · by_contra c
        obtain ⟨-, -, hn, -⟩ := b.pageDone c
        exact hn hz
      · obtain ⟨-, -, -, hr⟩ := b.pageDone c
        exact hr
      · obtain ⟨ho, hrest⟩ := b.requested c hc hr
        exact ⟨ho, fun _ => hrest⟩
  case inr.inr.inr =>
    rw [Slot.balanced_of_closing h]
    simp only [h]
    refine ⟨fun ⟨_, hw, _, hpages, hdone, htimer, _, _, _, _, _, hzero, hreq, hok, hacc, hdue,
      hfir⟩ => ?_, fun b => ?_⟩
    · refine ⟨hw nofun, hpages, fun c => ?_, htimer nofun, fun c hc hr => ?_, hok trivial, hacc nofun,
        fun c => hdue c trivial, hfir⟩
      · obtain ⟨hopen, hclosing⟩ := hdone c (.inr trivial)
        exact ⟨hopen, hclosing, hzero trivial c⟩
      · obtain ⟨ho, -⟩ := hreq c hc hr
        exact ho
    · refine ⟨by rw [b.waiting]; omega, fun _ => b.waiting, fun _ c => absurd rfl c, b.pages,
        fun c _ => ?_, fun _ => b.timer, nofun, nofun, nofun, nofun, nofun, fun _ c => ?_,
        fun c hc hr => ⟨b.requested c hc hr, nofun⟩, fun _ => b.ok, fun _ => b.account,
        fun c _ => b.due c, b.firings⟩
      · obtain ⟨hopen, hclosing, -⟩ := b.pageDone c
        exact ⟨hopen, hclosing⟩
      · obtain ⟨-, -, ho⟩ := b.pageDone c
        exact ho

end

end Sys2Proof.Machine
end

/-! ## What each event does to the account of its slot (O57) -/

section
namespace Sys2Proof.Machine

variable {x y : Slot} {w : Nat}

/-! ### Only the books count -/

/-- Slots with the same books differ in fields that the account does not read; the open page and the
interval timer are in both or in neither. -/
theorem Slot.eq_of_books (h : y.books = x.books) :
    (y = { x with
      endTime := y.endTime
      nextDue := y.nextDue
      missedRun := y.missedRun
      intervalTimer := y.intervalTimer
      holdTimer := y.holdTimer
      armTimer := y.armTimer
      delayTimer := y.delayTimer
      onset := y.onset
      gateTarget := y.gateTarget
      gateEvents := y.gateEvents
      offered := y.offered
      pagesPosted := y.pagesPosted
      pageSequence := y.pageSequence
      openPage := y.openPage
      carriedMisses := y.carriedMisses
      carriedFiring := y.carriedFiring
      pendingFired := y.pendingFired
      requestSince := y.requestSince })
    ∧ (y.openPage = none ↔ x.openPage = none)
    ∧ (y.intervalTimer = none ↔ x.intervalTimer = none) := by
  have hopen : y.openPage.map (fun _ => Descriptor.openPage { address := 0, ident := 0 })
      = x.openPage.map fun _ => Descriptor.openPage { address := 0, ident := 0 } :=
    (congrArg Slot.openPage h : y.books.openPage = x.books.openPage)
  have htimer : y.intervalTimer.map (fun _ => 0) = x.intervalTimer.map fun _ => 0 :=
    (congrArg Slot.intervalTimer h : y.books.intervalTimer = x.books.intervalTimer)
  refine ⟨?_, ?_, ?_⟩
  · cases x; cases y
    simp only [Slot.books, Slot.essence, Slot.mk.injEq] at h ⊢
    simp only [h, and_self]
  · rw [← Option.map_eq_none_iff, hopen, Option.map_eq_none_iff]
  · rw [← Option.map_eq_none_iff, htimer, Option.map_eq_none_iff]

theorem Slot.Idle.congr (b : x.Idle w) (h : y.books = x.books) : y.Idle w := by
  obtain ⟨e, hopen, htimer⟩ := Slot.eq_of_books h
  rw [e]
  exact ⟨b.outstanding, hopen.2 b.openPage, b.closingPage, htimer.2 b.timer⟩

theorem Slot.Rests.congr (b : x.Rests w) (h : y.books = x.books) : y.Rests w := by
  refine ⟨b.toIdle.congr h, ?_, ?_⟩ <;> rw [(Slot.eq_of_books h).1]
  · exact b.account
  · exact b.firings

theorem Slot.Runs.congr (b : x.Runs w) (h : y.books = x.books) : y.Runs w := by
  obtain ⟨e, hopen, htimer⟩ := Slot.eq_of_books h
  rw [e]
  exact {
    pages := fun c => hopen.2 (b.pages c)
    handOn := b.handOn
    pageDone := fun c => have ⟨ho, hrest⟩ := b.pageDone c; ⟨hopen.2 ho, hrest⟩
    backToBack := fun c => have ⟨ho, ht⟩ := b.backToBack c; ⟨ho, htimer.2 ht⟩
    grid := fun c => have ⟨hr, hd, ht⟩ := b.grid c; ⟨hr, hd, fun c => ht (mt htimer.2 c)⟩
    requested := b.requested
    account := b.account
    firings := b.firings }

theorem Slot.Closes.congr (b : x.Closes w) (h : y.books = x.books) : y.Closes w := by
  obtain ⟨e, hopen, htimer⟩ := Slot.eq_of_books h
  rw [e]
  exact {
    waiting := b.waiting
    pages := fun c => hopen.2 (b.pages c)
    pageDone := fun c => have ⟨ho, hrest⟩ := b.pageDone c; ⟨hopen.2 ho, hrest⟩
    timer := htimer.2 b.timer
    requested := b.requested
    ok := b.ok
    account := b.account
    due := b.due
    firings := b.firings }

theorem Slot.state_of_books (h : y.books = x.books) : y.state = x.state :=
  (congrArg Slot.state h : y.books.state = x.books.state)

theorem Slot.Balanced.congr (b : x.Balanced w) (h : y.books = x.books) : y.Balanced w := by
  have hs := Slot.state_of_books h
  unfold Slot.Balanced at b ⊢
  rw [hs]
  split at b
  · exact b.congr h
  · exact b.congr h
  · exact b.congr h
  · exact b.congr h
  · exact ⟨b.1, b.2.congr h⟩
  · exact b.congr h

/-! ### Counting -/

theorem ofNat_succ (k : Nat) : BitVec.ofNat 32 (k + 1) = BitVec.ofNat 32 k + 1 :=
  BitVec.ofNat_add k 1

theorem Slot.counted_afterMiss (x : Slot) : x.afterMiss.counted = x.counted + 1 := by
  show x.stored + (x.missed + 1) + x.dropped = x.stored + x.missed + x.dropped + 1
  ring

theorem Slot.outstanding_succ (x : Slot) (w : Nat) : x.outstanding (w + 1) = x.outstanding w + 1 := by
  unfold Slot.outstanding; omega

theorem Slot.afterMiss_resolved (x : Slot) (h : x.scanCount ≠ 0) :
    x.afterMiss.resolved = x.resolved + 1 := by
  have : ¬ x.order.scanCount = 0 := mt (Slot.scanCount_eq_zero x).2 h
  exact if_neg this

/-! ### A waiting scan is counted missed (R51, R67) -/

theorem Slot.Runs.not_done (b : x.Runs w)
    (h : x.scanCount ≠ 0 → x.dueCount < x.scanCount ∨ x.outstanding w ≠ 0) :
    x.handOn = .pagePending ∧ ∀ c ∈ x.closingPage, c.requested ≠ true := by
  have hopen : ¬ (x.scanCount ≠ 0 ∧ x.resolved = x.scanCount) := by
    rintro ⟨hn, hr⟩
    obtain ⟨hsum, hle, -⟩ := b.grid hn
    rcases h hn with h | h <;> omega
  refine ⟨?_, fun c hc hr => ?_⟩
  · by_contra hd
    obtain ⟨-, -, hrest⟩ := b.pageDone hd
    exact hopen hrest
  · obtain ⟨-, hrest⟩ := b.requested c hc hr
    exact hopen hrest

/-- A scan that waits no longer is counted missed. -/
theorem Slot.Runs.afterMiss (b : x.Runs (w + 1)) : x.afterMiss.Runs w := by
  have hout := x.outstanding_succ w
  obtain ⟨hhand, hreq⟩ := b.not_done fun _ => .inr (by omega)
  exact {
    pages := b.pages
    handOn := b.handOn
    pageDone := fun c => absurd hhand c
    backToBack := fun c => have ⟨ho, ht⟩ := b.backToBack c; ⟨by show x.outstanding w ≤ 1; omega, ht⟩
    grid := fun c => by
      obtain ⟨hsum, hle, ht⟩ := b.grid c
      refine ⟨?_, hle, ht⟩
      rw [x.afterMiss_resolved c]
      show x.resolved + 1 + x.outstanding w = x.dueCount
      omega
    requested := fun c hc hr => absurd hr (hreq c hc)
    account := by
      rw [x.counted_afterMiss]
      show x.counted + 1 + BitVec.ofNat 32 (x.outstanding w) = x.becameDue
      rw [← b.account, hout, ofNat_succ]
      ring
    firings := fun c => by
      rw [x.counted_afterMiss, x.afterMiss_resolved c, b.firings c, ← Nat.add_assoc, ofNat_succ]
      rfl }

/-! ### Scans that become due (R63, R64) -/

/-- A further scan becomes due of a firing that still has some. -/
theorem Slot.Runs.raiseDue (b : x.Runs w) (hdue : x.scanCount ≠ 0 → x.dueCount < x.scanCount)
    (hback : x.order.interval = 0 → x.outstanding w = 0) : x.raiseDue.Runs (w + 1) := by
  obtain ⟨hhand, hreq⟩ := b.not_done fun c => .inl (hdue c)
  have hout := x.outstanding_succ w
  have hmin : x.scanCount ≠ 0 → min (x.dueCount + 1) 65535 = x.dueCount + 1 := fun c => by
    have hlt := hdue c
    have : x.scanCount < 2 ^ 16 := x.order.scanCount.isLt
    omega
  rw [Slot.raiseDue_eq]
  exact {
    pages := b.pages
    handOn := b.handOn
    pageDone := fun c => absurd hhand c
    backToBack := fun c => by
      obtain ⟨ho, ht⟩ := b.backToBack c
      refine ⟨?_, by simp [ht]⟩
      show x.outstanding (w + 1) ≤ 1
      rw [hout, hback c]
    grid := fun (c : x.scanCount ≠ 0) => by
      obtain ⟨hsum, hle, ht⟩ := b.grid c
      have hm := hmin c
      have hlt := hdue c
      have hc : x.order.scanCount ≠ 0 := mt (Slot.scanCount_eq_zero x).2 c
      refine ⟨?_, ?_, fun h => ?_⟩
      · show x.resolved + x.outstanding (w + 1) = min (x.dueCount + 1) 65535
        omega
      · show min (x.dueCount + 1) 65535 ≤ x.scanCount
        omega
      · show min (x.dueCount + 1) 65535 < x.scanCount
        have hne : ¬ min (x.dueCount + 1) 65535 = x.scanCount := fun e => h (if_pos ⟨hc, e⟩)
        omega
    requested := fun c hc hr => absurd hr (hreq c hc)
    account := by
      show x.counted + BitVec.ofNat 32 (x.outstanding (w + 1)) = x.becameDue + 1
      rw [← b.account, hout, ofNat_succ]
      ring
    firings := b.firings }

/-- The first scan of a firing becomes due at its fire (R32, R63). -/
theorem Slot.Rests.afterFire (b : x.Rests w) (record : FiredRecord) (moment : Moment) :
    (x.afterFire record moment).Runs (w + 1) := by
  have hout : x.outstanding (w + 1) = 1 := by rw [x.outstanding_succ, b.outstanding]
  exact {
    pages := fun _ => b.openPage
    handOn := nofun
    pageDone := fun c => absurd rfl c
    backToBack := fun (c : x.order.interval = 0) =>
      ⟨Nat.le_of_eq hout, by simp [Slot.afterFire, Slot.gridGoesOn, c]⟩
    grid := fun (c : x.scanCount ≠ 0) => by
      refine ⟨by show 0 + x.outstanding (w + 1) = 1; omega, Nat.one_le_iff_ne_zero.2 c, fun h => ?_⟩
      show 1 < x.scanCount
      by_contra hlt
      have hone : x.order.scanCount.toNat = 1 := by
        have : x.order.scanCount.toNat = x.scanCount := rfl
        omega
      have hc : (x.order.scanCount == 0) = false :=
        beq_eq_false_iff_ne.2 (mt (Slot.scanCount_eq_zero x).2 c)
      have hgrid : x.gridGoesOn 1 = false := by
        rw [Slot.gridGoesOn, hc, hone]; exact Bool.and_false _
      exact h (by simp [Slot.afterFire, hgrid])
    requested := fun c hc => by
      have : x.closingPage = some c := hc
      rw [b.closingPage] at this; cases this
    account := by
      show x.counted + BitVec.ofNat 32 (x.outstanding (w + 1)) = x.becameDue + 1
      rw [hout, b.account]
      rfl
    firings := b.firings }

/-! ### Endings (R53, R56) -/

/-- An order that ends between its firings has counted all its scans. -/
theorem Slot.Rests.afterEnding (b : x.Rests w) {reason : EndReason}
    (hr : reason ≠ .ok) (time : Timestamp) : (x.afterEnding reason time).Closes 0 := by
  obtain ⟨hw, -⟩ := Slot.eq_zero_of_outstanding b.outstanding
  subst hw
  have haccount : x.counted + BitVec.ofNat 32 (x.outstanding 0) = x.becameDue := by
    rw [b.outstanding, b.account, BitVec.add_zero]
  exact {
    waiting := rfl
    pages := fun _ => b.openPage
    pageDone := fun _ => ⟨b.openPage, b.closingPage, b.outstanding⟩
    timer := rfl
    requested := fun _ _ _ => b.outstanding
    ok := fun c => absurd (Option.some.inj c) hr
    account := haccount
    due := fun c => .inl (b.account.symm.trans (b.firings c))
    firings := fun _ c => absurd (Option.some.inj c) hr }

/-- An order that ends in a firing, with nothing waiting, keeps what it has in the converter and in
staging (R85); it ends OK only after the last scan (R53). -/
theorem Slot.Runs.afterEnding (b : x.Runs 0) (hs : x.state = .running) {reason : EndReason}
    (hr : reason = .ok → x.scanCount ≠ 0 ∧ x.resolved = x.scanCount) (time : Timestamp) :
    (x.afterEnding reason time).Closes 0 := by
  have hon : (x.afterEnding reason time).handOn = .pagePending := if_pos hs
  have hzero : x.scanCount ≠ 0 ∧ x.resolved = x.scanCount → x.outstanding 0 = 0 :=
    fun ⟨hn, hres⟩ => by
      obtain ⟨hsum, hle, -⟩ := b.grid hn
      omega
  exact {
    waiting := rfl
    pages := b.pages
    pageDone := fun c => absurd hon c
    timer := rfl
    requested := fun c hc hreq => have ⟨ho, _⟩ := b.requested c hc hreq; ho
    ok := fun c => have h := hr (Option.some.inj c); ⟨h.1, hzero h⟩
    account := b.account
    due := fun (c : x.scanCount ≠ 0) => .inr (by
      obtain ⟨hsum, -⟩ := b.grid c
      show x.becameDue = BitVec.ofNat 32 (x.scanCount * x.firings + x.dueCount)
      rw [← b.account, b.firings c, ← hsum, ← BitVec.ofNat_add, Nat.add_assoc])
    firings := fun (c : x.scanCount ≠ 0) hok => by
      obtain ⟨-, hres⟩ := hr (Option.some.inj hok)
      rw [hon, if_neg nofun]
      show x.counted = BitVec.ofNat 32 (x.scanCount * (x.firings + 1))
      rw [b.firings c, hres, Nat.mul_succ] }

/-- The interval timer of a firing that is ending stops (R53). -/
theorem Slot.Runs.stopTimer (b : x.Runs w) :
    ({ x with intervalTimer := none, nextDue := none } : Slot).Runs w where
  pages := b.pages
  handOn := b.handOn
  pageDone := b.pageDone
  backToBack c := have ⟨ho, _⟩ := b.backToBack c; ⟨ho, rfl⟩
  grid c := have ⟨hsum, hle, _⟩ := b.grid c; ⟨hsum, hle, fun h => absurd rfl h⟩
  requested := b.requested
  account := b.account
  firings := b.firings

/-- A firing that is counted leaves the order at rest (R54). -/
theorem Slot.Runs.counted (b : x.Runs w) (hn : x.scanCount ≠ 0) (hr : x.resolved = x.scanCount)
    (hd : x.handOn = .pageDone) (timer : Option Nat) :
    ({ x with firings := x.firings + 1, handOn := .pagePending, requestSince := none,
              armTimer := timer } : Slot).Rests w := by
  obtain ⟨hopen, hclosing, -⟩ := b.pageDone (by rw [hd]; nofun)
  obtain ⟨hsum, hle, ht⟩ := b.grid hn
  have hzero : x.outstanding w = 0 := by omega
  exact {
    outstanding := hzero
    openPage := hopen
    closingPage := hclosing
    timer := by
      show x.intervalTimer = none
      by_contra c
      have := ht c
      omega
    account := by
      have := b.account
      rwa [hzero, BitVec.add_zero] at this
    firings := fun _ => by
      show x.counted = BitVec.ofNat 32 (x.scanCount * (x.firings + 1))
      rw [b.firings hn, hr, Nat.mul_succ] }

/-! ### Scans on their way to a page (R51, R73, R82) -/

/-- A scan that moves from one unit to the next stays outstanding. -/
theorem Slot.Runs.moved (b : x.Runs w) {c : Bool} {k w' : Nat}
    (h : ({ x with inConversion := c, inStaging := k } : Slot).outstanding w' = x.outstanding w) :
    ({ x with inConversion := c, inStaging := k } : Slot).Runs w' where
  pages := b.pages
  handOn := b.handOn
  pageDone := b.pageDone
  backToBack := by rw [h]; exact b.backToBack
  grid := by rw [h]; exact b.grid
  requested := by rw [h]; exact b.requested
  account := by rw [h]; exact b.account
  firings := b.firings

theorem Slot.Closes.moved (b : x.Closes w) {c : Bool} {k : Nat}
    (h : ({ x with inConversion := c, inStaging := k } : Slot).outstanding w = x.outstanding w) :
    ({ x with inConversion := c, inStaging := k } : Slot).Closes w where
  waiting := b.waiting
  pages := b.pages
  pageDone := by rw [h]; exact b.pageDone
  timer := b.timer
  requested := by rw [h]; exact b.requested
  ok := by rw [h]; exact b.ok
  account := by rw [h]; exact b.account
  due := b.due
  firings := b.firings

/-- The record of a slot after one of its staged scans, of the present firing, is stored or dropped
(R51, R95, R96). -/
def Slot.afterTaken (x : Slot) (page : Option OpenPage) (stored dropped : BitVec 32) : Slot :=
  { x with
    openPage := page
    inStaging := x.inStaging - 1
    stored := stored
    dropped := dropped
    resolved := x.resolvedAfter (BitVec.ofNat 8 x.firings) }

section
variable (page : Option OpenPage) {stored dropped : BitVec 32}

theorem Slot.outstanding_afterTaken (h : x.inStaging ≠ 0) :
    x.outstanding w = (x.afterTaken page stored dropped).outstanding w + 1 := by
  unfold Slot.outstanding Slot.afterTaken
  dsimp only
  omega

theorem Slot.counted_afterTaken (h : stored + dropped = x.stored + x.dropped + 1) :
    (x.afterTaken page stored dropped).counted = x.counted + 1 := by
  show stored + x.missed + dropped = x.stored + x.missed + x.dropped + 1
  calc stored + x.missed + dropped = (stored + dropped) + x.missed := by ring
    _ = x.stored + x.missed + x.dropped + 1 := by rw [h]; ring

theorem Slot.Runs.afterTaken (b : x.Runs w) (hs : x.inStaging ≠ 0) (hp : x.closingPage = none)
    (hc : stored + dropped = x.stored + x.dropped + 1) :
    (x.afterTaken page stored dropped).Runs w := by
  have hout := x.outstanding_afterTaken (w := w) page (stored := stored) (dropped := dropped) hs
  have hcount := x.counted_afterTaken page hc
  obtain ⟨hhand, -⟩ := b.not_done fun _ => .inr (by omega)
  have hres : x.scanCount ≠ 0 → (x.afterTaken page stored dropped).resolved = x.resolved + 1 :=
    fun c => if_pos ⟨mt (Slot.scanCount_eq_zero x).2 c, rfl⟩
  exact {
    pages := fun c => absurd hp c
    handOn := b.handOn
    pageDone := fun c => absurd hhand c
    backToBack := fun c => have ⟨ho, ht⟩ := b.backToBack c; ⟨by omega, ht⟩
    grid := fun c => by
      obtain ⟨hsum, hle, ht⟩ := b.grid c
      refine ⟨?_, hle, ht⟩
      rw [hres c]
      show _ = x.dueCount
      omega
    requested := fun c hpage => by
      have : x.closingPage = some c := hpage
      rw [hp] at this; cases this
    account := by
      have := b.account
      rw [hcount]
      rw [hout, ofNat_succ] at this
      show _ = x.becameDue
      rw [← this]
      ring
    firings := fun c => by
      rw [hcount, hres c, b.firings c, ← Nat.add_assoc, ofNat_succ]
      rfl }

theorem Slot.Closes.afterTaken (b : x.Closes w) (hs : x.inStaging ≠ 0) (hp : x.closingPage = none)
    (hc : stored + dropped = x.stored + x.dropped + 1) :
    (x.afterTaken page stored dropped).Closes w := by
  have hout := x.outstanding_afterTaken (w := w) page (stored := stored) (dropped := dropped) hs
  have hcount := x.counted_afterTaken page hc
  have hhand : x.handOn = .pagePending := by
    by_contra c
    obtain ⟨-, -, hz⟩ := b.pageDone c
    omega
  have hok : x.endReason ≠ some .ok := fun c => by
    obtain ⟨-, hz⟩ := b.ok c
    omega
  exact {
    waiting := b.waiting
    pages := fun c => absurd hp c
    pageDone := fun c => absurd hhand c
    timer := b.timer
    requested := fun c hpage => by
      have : x.closingPage = some c := hpage
      rw [hp] at this; cases this
    ok := fun c => absurd c hok
    account := by
      have := b.account
      rw [hcount]
      rw [hout, ofNat_succ] at this
      show _ = x.becameDue
      rw [← this]
      ring
    due := b.due
    firings := fun _ c => absurd c hok }

end

/-! ### Pages (R54, R57, R98, R101) -/

/-- A slot in a firing asks for its page only when nothing of the firing is outstanding. -/
theorem Slot.Runs.outstanding_of_asks (b : x.Runs w) (hs : x.state = .running) (ha : x.Asks) :
    x.outstanding w = 0 ∧ x.scanCount ≠ 0 ∧ x.resolved = x.scanCount := by
  obtain ⟨-, hended, -⟩ := ha
  obtain ⟨-, hn, hr⟩ := hended.resolve_right (by rw [hs]; nofun)
  have hn : x.scanCount ≠ 0 := mt (Slot.scanCount_eq_zero x).1 hn
  obtain ⟨hsum, hle, -⟩ := b.grid hn
  have hr : x.resolved = x.scanCount := hr
  exact ⟨by omega, hn, hr⟩

theorem Slot.Closes.outstanding_of_asks (b : x.Closes w) (ha : x.Asks) : x.outstanding w = 0 := by
  obtain ⟨-, -, hconv, hstaged, -⟩ := ha
  unfold Slot.outstanding
  rw [b.waiting, hconv, hstaged]
  rfl

/-- A slot that asks and has no page has its page done. -/
theorem Slot.Balanced.pageSettled (b : x.Balanced w) : x.pageSettled.Balanced w := by
  obtain ⟨hsettle, hstay⟩ := x.pageSettled_settles
  by_cases h : x.Asks ∧ x.openPage = none ∧ x.closingPage = none
  swap
  · rw [hstay h]; exact b
  rw [hsettle h]
  obtain ⟨ha, hopen, hclosing⟩ := h
  obtain ⟨hon, hended, -⟩ := id ha
  rcases hended with hs | hs
  · obtain ⟨hs, -⟩ := hs
    obtain ⟨hw, b⟩ := (Slot.balanced_of_running hs).1 b
    obtain ⟨-, hrest⟩ := b.outstanding_of_asks hs ha
    exact (Slot.balanced_of_running (x := { x with handOn := .pageDone, requestSince := none }) hs).2
      ⟨hw, { b with handOn := nofun, pageDone := fun _ => ⟨hopen, hclosing, hrest⟩ }⟩
  · have b := (Slot.balanced_of_closing hs).1 b
    have hz := b.outstanding_of_asks ha
    refine (Slot.balanced_of_closing (x := { x with handOn := .pageDone, requestSince := none }) hs).2
      { b with pageDone := fun _ => ⟨hopen, hclosing, hz⟩, firings := fun c hok => ?_ }
    have := b.firings c hok
    rwa [hon] at this

/-- The close of the open page begins. -/
theorem Slot.Balanced.closeBegins {p : OpenPage} (b : x.Balanced w) (hp : x.openPage = some p)
    (c : ClosingPage) (ha : c.requested = true → x.Asks) (since : Option WorkItem) :
    ({ x with openPage := none, requestSince := since, closingPage := some c } : Slot).Balanced w := by
  have hhand : ∀ {P Q : Prop}, (x.handOn ≠ .pagePending → x.openPage = none ∧ P) →
      ({ x with openPage := none, requestSince := since, closingPage := some c } : Slot).handOn
        ≠ .pagePending → Q := fun h c => by
    obtain ⟨ho, -⟩ := h c
    rw [hp] at ho; cases ho
  have hasked : ∀ d ∈ some c, d.requested = true → x.Asks := fun d hd hr => by
    cases hd; exact ha hr
  rcases x.state_cases with hs | hs | hs | hs
  · have b := (Slot.balanced_of_free hs).1 b
    rw [b.openPage] at hp; cases hp
  · have b := (Slot.balanced_of_waits hs).1 b
    rw [b.openPage] at hp; cases hp
  · obtain ⟨hw, b⟩ := (Slot.balanced_of_running hs).1 b
    exact (Slot.balanced_of_running
      (x := { x with openPage := none, requestSince := since, closingPage := some c }) hs).2
      ⟨hw, { b with pages := fun _ => rfl, pageDone := hhand b.pageDone, requested := fun d hd hr =>
        b.outstanding_of_asks hs (hasked d hd hr) }⟩
  · have b := (Slot.balanced_of_closing hs).1 b
    exact (Slot.balanced_of_closing
      (x := { x with openPage := none, requestSince := since, closingPage := some c }) hs).2
      { b with pages := fun _ => rfl, pageDone := hhand b.pageDone, requested := fun d hd hr =>
        b.outstanding_of_asks (hasked d hd hr) }

/-- The close of a page is taken: only a slot that asked for it has its page done (R98, R101). -/
theorem Slot.Balanced.closeTaken {c : ClosingPage} (b : x.Balanced w)
    (hp : x.closingPage = some c) :
    ({ x with closingPage := none,
              handOn := if c.requested then .pageDone else x.handOn } : Slot).Balanced w := by
  have hne : x.closingPage ≠ none := by rw [hp]; nofun
  have hmem : c ∈ x.closingPage := hp
  rcases x.state_cases with hs | hs | hs | hs
  · exact absurd ((Slot.balanced_of_free hs).1 b).closingPage hne
  · exact absurd ((Slot.balanced_of_waits hs).1 b).closingPage hne
  · obtain ⟨hw, b⟩ := (Slot.balanced_of_running hs).1 b
    refine (Slot.balanced_of_running (x := { x with
      closingPage := none, handOn := if c.requested then .pageDone else x.handOn }) hs).2
      ⟨hw, { b with pages := fun h => absurd rfl h, handOn := ?_, pageDone := fun h => ?_,
                    requested := nofun }⟩
    · show (if c.requested then HandOn.pageDone else x.handOn) ≠ .completed
      split
      · nofun
      · exact b.handOn
    · by_cases hr : c.requested = true
      · obtain ⟨-, hrest⟩ := b.requested c hmem hr
        exact ⟨b.pages hne, rfl, hrest⟩
      · obtain ⟨-, hclosing, -⟩ := b.pageDone (by simpa [hr] using h)
        exact absurd hclosing hne
  · have b := (Slot.balanced_of_closing hs).1 b
    have hon : x.handOn = .pagePending := by
      by_contra h
      obtain ⟨-, hclosing, -⟩ := b.pageDone h
      exact hne hclosing
    refine (Slot.balanced_of_closing (x := { x with
      closingPage := none, handOn := if c.requested then .pageDone else x.handOn }) hs).2
      { b with pages := fun h => absurd rfl h, pageDone := fun h => ?_, requested := nofun,
               firings := fun hn hok => ?_ }
    · by_cases hr : c.requested = true
      · exact ⟨b.pages hne, rfl, b.requested c hmem hr⟩
      · exact absurd hon (by simpa [hr] using h)
    · have hnot : (if c.requested then HandOn.pageDone else x.handOn) ≠ .completed := by
        rw [hon]; split <;> nofun
      have := b.firings hn hok
      rw [hon, if_neg nofun] at this
      rw [if_neg hnot]
      exact this

/-! ### The end of an order (R57) -/

/-- The last firing of an order that ended OK is counted. -/
theorem Slot.Closes.completed (b : x.Closes w) (hok : x.endReason = some .ok)
    (hon : x.handOn = .pageDone) :
    ({ x with firings := x.firings + 1, handOn := .completed } : Slot).Closes w := by
  obtain ⟨-, hz⟩ := b.ok hok
  have hdone := b.pageDone (by rw [hon]; nofun)
  have hcounted : x.scanCount ≠ 0 →
      x.counted = BitVec.ofNat 32 (x.scanCount * (x.firings + 1)) := fun c => by
    have := b.firings c hok
    rwa [hon, if_neg nofun] at this
  have hdue : x.counted = x.becameDue := by
    have := b.account
    rwa [hz, BitVec.add_zero] at this
  exact { b with
    pageDone := fun _ => hdone
    due := fun c => .inl (hdue.symm.trans (hcounted c))
    firings := fun c _ => by rw [if_pos rfl]; exact hcounted c }

theorem Slot.free_idle : Slot.free.Idle 0 := ⟨rfl, rfl, rfl, rfl⟩

/-- A new order has no scans yet. -/
theorem Slot.rests_holding (order : OrderCopy) (state : SlotState) :
    (Slot.holding order state).Rests 0 :=
  ⟨⟨rfl, rfl, rfl, rfl⟩, rfl, fun _ => by rfl⟩

end Sys2Proof.Machine
end

/-! ## The account of every slot (O57) -/

section
namespace Sys2Proof.Machine

variable {s t u : State} {i j : Fin 32} {x y : Slot} {p : Share} {f : Prop}

/-! ### A slot and the scans the units hold of it -/

/-- The marks of a slot agree with the scans `p` that the units hold of it, which belong to its present
firing; in FAULTED, `f`, a scan in conversion may be gone (R51, R86). -/
structure Slot.Marked (x : Slot) (p : Share) (f : Prop) : Prop where
  converting : ¬ f → x.inConversion = p.converting.isSome
  staged : x.inStaging = p.staged.length
  index : ∀ b, b ∈ p.waiting ∨ b ∈ p.converting ∨ b ∈ p.staged → b = BitVec.ofNat 8 x.firings

/-- The slot's marks agree and its scans are accounted for (R52). -/
def Slot.AccountsFor (x : Slot) (p : Share) (f : Prop) : Prop :=
  x.Marked p f ∧ x.Balanced p.waiting.length

/-- Slot `i` of `s` accounts for its scans. -/
def State.AccountsAt (s : State) (i : Fin 32) : Prop :=
  (s.slot i).AccountsFor (s.sched.share i) (s.run.runState = .faulted)

theorem State.marksAgree_iff :
    s.MarksAgree i ↔ (s.slot i).Marked (s.sched.share i) (s.run.runState = .faulted) := by
  have hconv : (s.sched.share i).converting.isSome = s.sched.conversion.any fun c => c.slot == i := by
    simp only [Scheduler.share, Option.isSome_map]
    cases s.sched.conversion with
    | none => rfl
    | some c => by_cases h : (c.slot == i) = true <;> simp [Option.filter, h]
  have hstaged : (s.sched.share i).staged.length
      = (s.sched.staging.filter fun r => r.slot == i).length := List.length_map _
  have hindex : (∀ b, b ∈ (s.sched.share i).waiting ∨ b ∈ (s.sched.share i).converting
        ∨ b ∈ (s.sched.share i).staged → b = BitVec.ofNat 8 (s.slot i).firings) ↔
      (∀ d ∈ s.sched.due, d.slot = i → d.firingIndex = BitVec.ofNat 8 (s.slot i).firings)
      ∧ (∀ c ∈ s.sched.conversion, c.slot = i → c.firingIndex = BitVec.ofNat 8 (s.slot i).firings)
      ∧ (∀ r ∈ s.sched.staging, r.slot = i → r.firingIndex = BitVec.ofNat 8 (s.slot i).firings) := by
    simp only [Scheduler.share, or_imp, forall_and, List.forall_mem_map, Option.forall_mem_map]
    simp only [List.mem_filter, Option.mem_def, Option.filter_eq_some_iff, beq_iff_eq, and_imp]
  refine ⟨fun ⟨hc, hs, h⟩ => ⟨fun hf => (hc hf).trans hconv.symm, hs.trans hstaged.symm, hindex.2 h⟩,
    fun h => ⟨fun hf => (h.converting hf).trans hconv, h.staged.trans hstaged, hindex.1 h.index⟩⟩

theorem scansAccounted_iff : ScansAccounted s ↔ ∀ i, s.AccountsAt i := by
  have hw : ∀ i, (s.sched.share i).waiting.length
      = (s.sched.due.filter fun d => d.slot == i).length := fun i => List.length_map _
  simp only [ScansAccounted, State.AccountsAt, Slot.AccountsFor, State.marksAgree_iff,
    State.accounted_iff, hw]

theorem Slot.Marked.congr (h : x.Marked p f) (hc : y.inConversion = x.inConversion)
    (hs : y.inStaging = x.inStaging) (hf : y.firings = x.firings) : y.Marked p f :=
  ⟨fun c => hc.trans (h.converting c), hs.trans h.staged, fun b hb => by rw [hf]; exact h.index b hb⟩

theorem Slot.Marked.congr_books (h : x.Marked p f) (e : y.books = x.books) : y.Marked p f :=
  h.congr (congrArg Slot.inConversion e : y.books.inConversion = x.books.inConversion)
    (congrArg Slot.inStaging e : y.books.inStaging = x.books.inStaging)
    (congrArg Slot.firings e : y.books.firings = x.books.firings)

theorem Slot.AccountsFor.congr (h : x.AccountsFor p f) (e : y.books = x.books) :
    y.AccountsFor p f :=
  ⟨h.1.congr_books e, h.2.congr e⟩

/-- Other scans of the present firing may wait. -/
theorem Slot.Marked.waiting (h : x.Marked p f) {l : List Byte}
    (hl : ∀ b ∈ l, b = BitVec.ofNat 8 x.firings) : x.Marked { p with waiting := l } f :=
  ⟨h.converting, h.staged, fun b hb => hb.elim (hl b) fun hb => h.index b (.inr hb)⟩

/-- With nothing outstanding and the card not in FAULTED the units hold no scan of the slot. -/
theorem Slot.Marked.empty (h : x.Marked p f) (hf : ¬ f) (hz : x.outstanding p.waiting.length = 0) :
    p = ⟨[], none, []⟩ := by
  obtain ⟨hw, hc, hs⟩ := Slot.eq_zero_of_outstanding hz
  have hc' := h.converting hf
  have hs' := h.staged
  rw [hc] at hc'
  rw [hs] at hs'
  obtain ⟨waiting, converting, staged⟩ := p
  have hwaiting : waiting = [] := List.eq_nil_of_length_eq_zero hw
  have hstaged : staged = [] := List.eq_nil_of_length_eq_zero hs'.symm
  have hconverting : converting = none :=
    Option.isNone_iff_eq_none.1 (Option.isSome_eq_false_iff.1 hc'.symm)
  rw [hwaiting, hstaged, hconverting]

/-! ### The units under a change of one slot's scans -/

section
variable (d : Scheduler)

theorem insertDue_filter_of_false (e : DueEntry) (l : List DueEntry) {q : DueEntry → Bool}
    (h : q e = false) : (insertDue e l).filter q = l.filter q := by
  induction l with
  | nil => simp [insertDue, h]
  | cons a l ih =>
    unfold insertDue
    split
    · rw [List.filter_cons_of_neg (by simp [h])]
    · simp only [List.filter_cons, ih]

theorem insertDue_filter_of_none (e : DueEntry) (l : List DueEntry) {q : DueEntry → Bool}
    (h : q e = true) (hl : l.filter q = []) : (insertDue e l).filter q = [e] := by
  induction l with
  | nil => simp [insertDue, h]
  | cons a l ih =>
    have ha : q a = false := by
      rw [← Bool.not_eq_true]
      exact fun ha => by rw [List.filter_cons_of_pos ha] at hl; cases hl
    rw [List.filter_cons_of_neg (by simp [ha])] at hl
    unfold insertDue
    split
    · rw [List.filter_cons_of_pos h, List.filter_cons_of_neg (by simp [ha]), hl]
    · rw [List.filter_cons_of_neg (by simp [ha]), ih hl]

/-- An entry inserted for slot `e.slot` is that slot's alone. -/
theorem Scheduler.share_insert_ne (e : DueEntry) (h : j ≠ e.slot) :
    ({ d with due := insertDue e d.due } : Scheduler).share j = d.share j := by
  simp only [Scheduler.share,
    insertDue_filter_of_false (q := fun a => a.slot == j) e d.due (beq_eq_false_iff_ne.2 h.symm)]

theorem Scheduler.share_insert_self (e : DueEntry) (h : (d.share e.slot).waiting = []) :
    ({ d with due := insertDue e d.due } : Scheduler).share e.slot
      = { d.share e.slot with waiting := [e.firingIndex] } := by
  have hnone : d.due.filter (fun a => a.slot == e.slot) = [] := List.map_eq_nil_iff.1 h
  simp only [Scheduler.share,
    insertDue_filter_of_none (q := fun a => a.slot == e.slot) e d.due (beq_self_eq_true _) hnone,
    List.map_singleton]

theorem Scheduler.share_drop_ne (h : j ≠ i) :
    ({ d with due := d.due.filter fun e => e.slot != i } : Scheduler).share j = d.share j := by
  unfold Scheduler.share
  simp only [List.filter_filter, Share.mk.injEq, and_self, and_true]
  congr 1
  refine List.filter_congr fun e _ => ?_
  by_cases he : e.slot = j <;> simp [he, h]

theorem Scheduler.share_drop_self :
    ({ d with due := d.due.filter fun e => e.slot != i } : Scheduler).share i
      = { d.share i with waiting := [] } := by
  unfold Scheduler.share
  simp [List.filter_filter]

end

theorem State.noEntry_iff_share : s.NoEntry i ↔ (s.sched.share i).waiting.length = 0 := by
  rw [State.noEntry_iff, List.length_eq_zero_iff]
  exact List.map_eq_nil_iff.symm

/-! ### Steps at one slot -/

/-- The run state and every slot but `i`, with its scans in the units, are as before. -/
structure OthersKeep (s t : State) (i : Fin 32) : Prop where
  runState : t.run.runState = s.run.runState
  books : ∀ j, j ≠ i → (t.slot j).books = (s.slot j).books
  share : ∀ j, j ≠ i → t.sched.share j = s.sched.share j

theorem OthersKeep.accountsAt (h : OthersKeep s t i) (hj : j ≠ i) (ha : s.AccountsAt j) :
    t.AccountsAt j := by
  unfold State.AccountsAt
  rw [h.runState, h.share j hj]
  exact ha.congr (h.books j hj)

/-- A step that changes slot `i` alone keeps the account if slot `i` does. -/
theorem OthersKeep.accounted (h : OthersKeep s t i) (ha : ∀ j, j ≠ i → s.AccountsAt j)
    (hi : t.AccountsAt i) : ∀ j, t.AccountsAt j := fun j => by
  by_cases hj : j = i
  · rw [hj]; exact hi
  · exact h.accountsAt hj (ha j hj)

theorem OthersKeep.setSlot (s : State) (i : Fin 32) (y : Slot) : OthersKeep s (s.setSlot i y) i :=
  ⟨rfl, fun _ hj => by rw [s.slot_setSlot_ne _ _ _ hj], fun _ _ => rfl⟩

/-- The account when the units hold the same scans of slot `i` as before. -/
theorem State.accounted_setSlot (ha : ∀ j, j ≠ i → s.AccountsAt j)
    (hi : y.AccountsFor (s.sched.share i) (s.run.runState = .faulted)) :
    ∀ j, (s.setSlot i y).AccountsAt j := by
  refine (OthersKeep.setSlot s i y).accounted ha ?_
  unfold State.AccountsAt
  rw [State.slot_setSlot_self]
  exact hi

theorem FollowersHear.books {e : GateEvent} (h : FollowersHear s t i e) (hj : j ≠ i) :
    (t.slot j).books = (s.slot j).books := by
  rw [h.slot hj]; exact Slot.books_hear _ _ _

/-! ### Orders at rest -/

/-- Every other slot accounts for its scans, and slot `i` has none and is at rest, whatever its
state. -/
structure State.RestsAt (s : State) (i : Fin 32) : Prop where
  others : ∀ j, j ≠ i → s.AccountsAt j
  marked : (s.slot i).Marked (s.sched.share i) (s.run.runState = .faulted)
  rests : (s.slot i).Rests (s.sched.share i).waiting.length

theorem State.RestsAt.of_waits (ha : ∀ j, s.AccountsAt j) (hw : (s.slot i).Waits) : s.RestsAt i :=
  ⟨fun j _ => ha j, (ha i).1, (Slot.balanced_of_waits hw).1 (ha i).2⟩

theorem State.RestsAt.noEntry (h : s.RestsAt i) : s.NoEntry i :=
  State.noEntry_iff_share.2 (Slot.eq_zero_of_outstanding h.rests.outstanding).1

theorem State.RestsAt.accounted_setSlot (h : s.RestsAt i) {v : SlotState}
    (hb : y.books = { s.slot i with state := v }.books) (hw : y.Waits) :
    ∀ j, (s.setSlot i y).AccountsAt j := by
  have hv : ({ s.slot i with state := v } : Slot).Rests (s.sched.share i).waiting.length :=
    ⟨⟨h.rests.outstanding, h.rests.openPage, h.rests.closingPage, h.rests.timer⟩, h.rests.account,
      h.rests.firings⟩
  refine State.accounted_setSlot h.others ⟨?_, (Slot.balanced_of_waits hw).2 (hv.congr hb)⟩
  exact (h.marked.congr (y := { s.slot i with state := v }) rfl rfl rfl).congr_books hb

/-- An order at rest fires (R32). -/
theorem State.RestsAt.fires (h : s.RestsAt i) {cause : Cause} {onset time : Timestamp}
    (hf : Fires s t i cause onset time) : ∀ j, t.AccountsAt j := by
  obtain ⟨hslot, hothers, ht⟩ := hf
  have hrun : t.run.runState = s.run.runState := by rw [ht]
  have hsched : t.sched = { s.sched with due := insertDue (s.entryNow i) s.sched.due } := by rw [ht]
  have hw := (Slot.eq_zero_of_outstanding h.rests.outstanding).1
  have hkeep : OthersKeep s t i := ⟨hrun, fun j hj => hothers.books hj, fun j hj => by
    rw [hsched]; exact s.sched.share_insert_ne (s.entryNow i) hj⟩
  refine hkeep.accounted h.others ?_
  unfold State.AccountsAt
  rw [hslot, hrun, hsched]
  have hshare := s.sched.share_insert_self (s.entryNow i) (List.eq_nil_of_length_eq_zero hw)
  rw [show (s.entryNow i).slot = i from rfl] at hshare
  rw [hshare]
  have hruns := h.rests.afterFire (s.fireRecord i cause onset time) s.moment
  rw [hw] at hruns
  refine ⟨?_, (Slot.balanced_of_running rfl).2 ⟨Nat.le_refl 1, hruns⟩⟩
  have hmarked : ((s.slot i).afterFire (s.fireRecord i cause onset time) s.moment).Marked
      (s.sched.share i) (s.run.runState = .faulted) := h.marked.congr rfl rfl rfl
  exact hmarked.waiting fun b hb => List.mem_singleton.1 hb

/-- An order at rest enters the watch (R18). -/
theorem State.RestsAt.enterWatch (h : s.RestsAt i) {a : ArmOrder}
    (hk : (s.slot i).order.kind = .arm a) (time : Timestamp) :
    ∀ j, (s.enterWatch i time).AccountsAt j := by
  have hwatch := s.enterWatch_entersWatch i a time hk h.noEntry
  unfold EntersWatch at hwatch
  dsimp only at hwatch
  split at hwatch
  · split at hwatch
    · rw [hwatch]; exact h.accounted_setSlot (v := .watching .clearWait) rfl (.inr (.inl ⟨_, rfl⟩))
    · split at hwatch
      · exact h.fires hwatch
      · rw [hwatch]; exact h.accounted_setSlot (v := .watching .hold) rfl (.inr (.inl ⟨_, rfl⟩))
  · rw [hwatch]; exact h.accounted_setSlot (v := .watching .trueWait) rfl (.inr (.inl ⟨_, rfl⟩))

/-! ### Endings -/

/-- The record of a slot that ends accounts for its scans, the waiting one counted missed. -/
theorem State.accountsFor_endedRecord (ha : s.AccountsAt i) (hfree : (s.slot i).state ≠ .free)
    (hclosing : (s.slot i).state ≠ .closing) {reason : EndReason}
    (hok : reason = .ok → (s.slot i).state = .running ∧ (s.slot i).scanCount ≠ 0
      ∧ (s.slot i).resolved = (s.slot i).scanCount) (time : Timestamp) :
    (s.endedRecord i reason time).AccountsFor { s.sched.share i with waiting := [] }
      (s.run.runState = .faulted) := by
  obtain ⟨hmarked, hbalanced⟩ := ha
  have hentry : (s.sched.due.any fun d => d.slot == i) = false ↔
      (s.sched.share i).waiting.length = 0 :=
    (s.hasDue_false_iff i).trans State.noEntry_iff_share
  have hcloses : (s.endedRecord i reason time).Closes 0 := by
    unfold State.endedRecord
    rcases (s.slot i).state_cases with hs | hs | hs | hs
    · exact absurd hs hfree
    · have hrests := (Slot.balanced_of_waits hs).1 hbalanced
      rw [if_neg (by rw [hentry.2 (Slot.eq_zero_of_outstanding hrests.outstanding).1]; nofun)]
      refine hrests.afterEnding (fun hr => ?_) time
      obtain ⟨hrun, -⟩ := hok hr
      rcases hs with hs | ⟨v, hs⟩ | hs <;> rw [hs] at hrun <;> cases hrun
    · obtain ⟨hle, hruns⟩ := (Slot.balanced_of_running hs).1 hbalanced
      split
      next hany =>
        have hone : (s.sched.share i).waiting.length = 0 + 1 := by
          have : (s.sched.share i).waiting.length ≠ 0 := fun h => by
            rw [hentry.2 h] at hany; cases hany
          omega
        rw [hone] at hruns
        refine hruns.afterMiss.afterEnding hs (fun hr => ?_) time
        obtain ⟨-, hn, hres⟩ := hok hr
        obtain ⟨hsum, hdue, -⟩ := hruns.grid hn
        rw [Slot.outstanding_succ] at hsum
        omega
      next hany =>
        rw [hentry.1 (Bool.not_eq_true _ ▸ hany)] at hruns
        exact hruns.afterEnding hs (fun hr => (hok hr).2) time
    · exact absurd hs hclosing
  refine ⟨?_, (Slot.balanced_of_closing (s.endedRecord_state reason time)).2 hcloses⟩
  refine Slot.Marked.waiting ?_ nofun
  unfold State.endedRecord
  split <;> exact hmarked.congr rfl rfl rfl

/-- An order ends (R56). -/
theorem Ends.accounted {reason : EndReason} {time : Timestamp} (h : Ends s t i reason time)
    (ha : ∀ j, s.AccountsAt j) (hfree : (s.slot i).state ≠ .free)
    (hclosing : (s.slot i).state ≠ .closing)
    (hok : reason = .ok → (s.slot i).state = .running ∧ (s.slot i).scanCount ≠ 0
      ∧ (s.slot i).resolved = (s.slot i).scanCount) : ∀ j, t.AccountsAt j := by
  have hended := s.accountsFor_endedRecord (ha i) hfree hclosing hok time
  have hbooks := Slot.books_of_essence h.slot_self
  obtain ⟨-, hothers, ht⟩ := h
  have hrun : t.run.runState = s.run.runState := by rw [ht]
  have hsched : t.sched = { s.sched with due := s.sched.due.filter fun d => d.slot != i } := by
    rw [ht]
  have hkeep : OthersKeep s t i := ⟨hrun, fun j hj => hothers.books hj, fun j hj => by
    rw [hsched]; exact s.sched.share_drop_ne hj⟩
  refine hkeep.accounted (fun j _ => ha j) ?_
  unfold State.AccountsAt
  rw [hrun, hsched, s.sched.share_drop_self]
  exact hended.congr hbooks

end Sys2Proof.Machine
end

/-! ## Every move keeps the account (O57) -/

section
namespace Sys2Proof.Machine

variable {s t u : State} {i j : Fin 32} {x y : Slot} {p : Share} {f f' : Prop}

/-! ### Moves that leave every account alone -/

theorem Slot.AccountsFor.mono (h : x.AccountsFor p f) (hf : f → f') : x.AccountsFor p f' :=
  ⟨⟨fun c => h.1.converting (mt hf c), h.1.staged, h.1.index⟩, h.2⟩

theorem State.accountsAt_of_essence (h : t.essence = s.essence)
    (hf : s.run.runState = .faulted → t.run.runState = .faulted) (ha : s.AccountsAt j) :
    t.AccountsAt j := by
  have hslot : (t.slot j).essence = (s.slot j).essence := congrFun (congrArg Prod.fst h) j
  have hshare : t.sched.share j = s.sched.share j := congrFun (congrArg Prod.snd h) j
  unfold State.AccountsAt
  rw [hshare]
  exact (ha.congr (Slot.books_of_essence hslot)).mono hf

theorem State.reset_accountsAt (j : Fin 32) : State.reset.AccountsAt j :=
  scansAccounted_iff.1 (fun i => ⟨State.reset_marksAgree i, State.reset_accounted i⟩) j

/-- In FAULTED the scan in conversion is gone and its mark is kept (R86). -/
theorem State.accountsAt_enterFaulted (code : FaultCode) (ha : s.AccountsAt j) :
    (s.enterFaulted code).AccountsAt j := by
  obtain ⟨-, -, ht⟩ := s.enterFaulted_entersFaulted code
  have hrun : (s.enterFaulted code).run.runState = .faulted := by rw [ht]
  have hslot : (s.enterFaulted code).slot j = s.slot j := State.slot_congr j (by rw [ht]; rfl)
  have hshare : (s.enterFaulted code).sched.share j
      = { s.sched.share j with converting := none } := by rw [ht]; rfl
  obtain ⟨hmarked, hbalanced⟩ := ha
  unfold State.AccountsAt
  rw [hslot, hshare]
  refine ⟨⟨fun c => absurd hrun c, hmarked.staged, fun b hb => hmarked.index b ?_⟩, hbalanced⟩
  exact hb.imp_right fun hb => .inr (hb.resolve_left nofun)

/-! ### Moves of one slot -/

theorem State.not_faulted_of_live (h : s.Live) : ¬ s.run.runState = .faulted := by
  rcases h with h | h <;> rw [h] <;> nofun

theorem Slot.marked_of_empty (hc : y.inConversion = false) (hs : y.inStaging = 0) :
    y.Marked ⟨[], none, []⟩ f :=
  ⟨fun _ => hc, hs, fun b hb => by simp at hb⟩

/-- A firing that completes leaves the order at rest (R54). -/
theorem State.restsAt_counted (ha : ∀ j, s.AccountsAt j) (hr : s.AwaitsCompletion i)
    (timer : Option Nat) :
    (s.setSlot i { s.slot i with firings := (s.slot i).firings + 1, handOn := .pagePending,
                                 requestSince := none, armTimer := timer }).RestsAt i := by
  obtain ⟨hrunning, hstate, hn, hres, hon, -, -⟩ := hr
  obtain ⟨hmarked, hbalanced⟩ := ha i
  obtain ⟨-, hruns⟩ := (Slot.balanced_of_running hstate).1 hbalanced
  have hrests := hruns.counted (mt (Slot.scanCount_eq_zero _).1 hn) hres hon timer
  have hempty := hmarked.empty (by rw [hrunning]; nofun) hrests.outstanding
  obtain ⟨-, hc, hs⟩ := Slot.eq_zero_of_outstanding hrests.outstanding
  refine ⟨fun j hj => (OthersKeep.setSlot s i _).accountsAt hj (ha j), ?_, ?_⟩
  · rw [State.slot_setSlot_self, State.setSlot_sched, hempty]
    exact Slot.marked_of_empty hc hs
  · rw [State.slot_setSlot_self]
    exact hrests

theorem State.AwaitsCompletion.arm (h : s.AwaitsCompletion i) :
    ∃ a, (s.slot i).order.kind = .arm a := by
  obtain ⟨-, -, -, -, -, -, harm⟩ := h
  exact harm

theorem State.accounted_returnToWatch (ha : ∀ j, s.AccountsAt j) (hr : s.AwaitsCompletion i) :
    ∀ j, (s.returnToWatch i).AccountsAt j := by
  obtain ⟨a, hk⟩ := hr.arm
  refine (State.restsAt_counted ha hr (s.slot i).restartArm).enterWatch (a := a) ?_ s.now
  rw [State.slot_setSlot_self]
  exact hk

theorem State.accounted_opens (ha : ∀ j, s.AccountsAt j) (hg : (s.slot i).state = .gated)
    (time : Timestamp) : ∀ j, (s.enterWatch i time).AccountsAt j := by
  cases hk : (s.slot i).order.kind with
  | arm a => exact (State.RestsAt.of_waits ha (.inl hg)).enterWatch hk time
  | sample delay =>
    unfold State.enterWatch
    rw [hk]
    exact State.accounted_setSlot (fun j _ => ha j) ((ha i).congr rfl)

theorem State.accounted_pageSettled (ha : ∀ j, s.AccountsAt j) :
    ∀ j, (s.setSlot i (s.slot i).pageSettled).AccountsAt j := by
  obtain ⟨hmarked, hbalanced⟩ := ha i
  refine State.accounted_setSlot (fun j _ => ha j) ⟨?_, hbalanced.pageSettled⟩
  unfold Slot.pageSettled
  split
  · exact hmarked.congr rfl rfl rfl
  · exact hmarked

theorem State.accounted_completes (ha : ∀ j, s.AccountsAt j) (hc : s.canComplete i = true) :
    ∀ j, (s.setSlot i { s.slot i with firings := (s.slot i).firings + 1,
                                      handOn := .completed }).AccountsAt j := by
  simp only [State.canComplete, Bool.and_eq_true, s.isLive_iff, beq_iff_eq] at hc
  obtain ⟨⟨⟨⟨hlive, hstate⟩, hreason⟩, hon⟩, -⟩ := hc
  obtain ⟨hmarked, hbalanced⟩ := ha i
  have hcloses := (Slot.balanced_of_closing hstate).1 hbalanced
  obtain ⟨-, hz⟩ := hcloses.ok hreason
  obtain ⟨-, hconv, hstaged⟩ := Slot.eq_zero_of_outstanding hz
  have hdone := hcloses.completed hreason hon
  refine State.accounted_setSlot (fun j _ => ha j)
    ⟨?_, (Slot.balanced_of_closing (x := { s.slot i with
      firings := (s.slot i).firings + 1, handOn := .completed }) hstate).2 hdone⟩
  rw [hmarked.empty (s.not_faulted_of_live hlive) hz]
  exact Slot.marked_of_empty hconv hstaged

theorem State.accounted_frees (ha : ∀ j, s.AccountsAt j) (hlive : s.Live)
    (hon : (s.slot i).HandedOn) : ∀ j, (s.setSlot i Slot.free).AccountsAt j := by
  obtain ⟨hstate, hconv, hstaged, -⟩ := hon
  obtain ⟨hmarked, hbalanced⟩ := ha i
  have hcloses := (Slot.balanced_of_closing hstate).1 hbalanced
  have hz : (s.slot i).outstanding (s.sched.share i).waiting.length = 0 := by
    rw [hcloses.waiting, Slot.outstanding, hconv, hstaged]; rfl
  refine State.accounted_setSlot (fun j _ => ha j) ?_
  rw [hmarked.empty (s.not_faulted_of_live hlive) hz]
  exact ⟨Slot.marked_of_empty rfl rfl, (Slot.balanced_of_free rfl).2 Slot.free_idle⟩

theorem State.accounted_closeBegins (ha : ∀ j, s.AccountsAt j) {o : OpenPage} {flags : PageFlags}
    {requested : Bool} (hp : (s.slot i).openPage = some o)
    (hr : requested = true → (s.slot i).Asks) :
    ∀ j, (s.beginClose i o flags requested).AccountsAt j := by
  obtain ⟨hmarked, hbalanced⟩ := ha i
  refine fun j => State.accountsAt_of_essence (t := s.beginClose i o flags requested) rfl id
    (State.accounted_setSlot (fun j _ => ha j) ⟨?_, hbalanced.closeBegins hp _ hr _⟩ j)
  exact hmarked.congr rfl rfl rfl

theorem State.accounted_closeTaken (ha : ∀ j, s.AccountsAt j) {c : ClosingPage}
    (hp : (s.slot i).closingPage = some c)
    (hy : y.essence = { s.slot i with
      closingPage := none
      handOn := if c.requested then .pageDone else (s.slot i).handOn }.essence) :
    ∀ j, (s.setSlot i y).AccountsAt j := by
  obtain ⟨hmarked, hbalanced⟩ := ha i
  have htaken : ({ s.slot i with
      closingPage := none
      handOn := if c.requested then .pageDone else (s.slot i).handOn } : Slot).AccountsFor
      (s.sched.share i) (s.run.runState = .faulted) :=
    ⟨hmarked.congr rfl rfl rfl, hbalanced.closeTaken hp⟩
  exact State.accounted_setSlot (fun j _ => ha j) (htaken.congr (Slot.books_of_essence hy))

/-- An order that is admitted starts at rest. -/
theorem State.restsAt_admitted (ha : ∀ j, s.AccountsAt j) (hf : ¬ s.run.runState = .faulted)
    (hfree : (s.slot i).state = .free) (order : OrderCopy) (state : SlotState)
    (hy : y.books = (Slot.holding order state).books) : (s.setSlot i y).RestsAt i := by
  obtain ⟨hmarked, hbalanced⟩ := ha i
  have hidle := (Slot.balanced_of_free hfree).1 hbalanced
  refine ⟨fun j hj => (OthersKeep.setSlot s i _).accountsAt hj (ha j), ?_, ?_⟩
  all_goals
    rw [State.slot_setSlot_self, State.setSlot_sched, hmarked.empty hf hidle.outstanding]
  · exact (Slot.marked_of_empty rfl rfl).congr_books hy
  · exact (Slot.rests_holding order state).congr hy

theorem State.RestsAt.accounted (h : s.RestsAt i) (hw : (s.slot i).Waits) : ∀ j, s.AccountsAt j := by
  have := h.accounted_setSlot (v := (s.slot i).state) (y := s.slot i) rfl hw
  rwa [State.setSlot_slot_self] at this

theorem State.accounted_giveSlot (ha : ∀ j, s.AccountsAt j) (hf : ¬ s.run.runState = .faulted)
    (hfree : (s.slot i).state = .free) (order : OrderCopy) (target : Option (Fin 32)) :
    ∀ j, (s.giveSlot i order target).AccountsAt j := by
  have hrests : ∀ {y : Slot} (state : SlotState), y.books = (Slot.holding order state).books →
      (s.setSlot i y).RestsAt i := fun state => State.restsAt_admitted ha hf hfree order state
  have hself : ∀ y, (s.setSlot i y).slot i = y := s.slot_setSlot_self i
  unfold State.giveSlot
  split
  next delay hk =>
    split
    · have hr := hrests (y := Slot.holding order .delaying) .delaying rfl
      exact hr.fires (State.fire_fires _ _ _ _ _ hr.noEntry)
    · exact (hrests (y := { Slot.holding order .delaying with delayTimer := some 0 }) .delaying
        rfl).accounted (by rw [hself]; exact .inr (.inr rfl))
  next a hk =>
    split
    next k =>
      exact (hrests (y := { Slot.holding order .gated with
        gateTarget := some k, armTimer := a.startTimer }) .gated rfl).accounted
          (by rw [hself]; exact .inl rfl)
    · exact (hrests (y := { Slot.holding order (.watching .trueWait) with
        armTimer := a.startTimer }) (.watching .trueWait) rfl).enterWatch (a := a)
          (by rw [hself]; exact hk) _

/-! ### Due scans (R64, R65, R67) -/

theorem BecomesDue.slot (h : BecomesDue s t i) : t.slot i = (s.slot i).raiseDue := by
  rw [h, Slot.raiseDue_eq]
  exact State.slot_setSlot_self _ _ _

/-- A scan of a firing becomes due and waits (R67, R71). -/
theorem BecomesDue.accounted (h : BecomesDue s t i) (ha : ∀ j, s.AccountsAt j) (hn : s.NoEntry i)
    (hs : (s.slot i).state = .running)
    (hdue : (s.slot i).scanCount ≠ 0 → (s.slot i).dueCount < (s.slot i).scanCount)
    (hback : (s.slot i).order.interval = 0 →
      (s.slot i).outstanding (s.sched.share i).waiting.length = 0) : ∀ j, t.AccountsAt j := by
  have hslot := h.slot
  have hrun : t.run.runState = s.run.runState := by rw [h]; rfl
  have hsched : t.sched = { s.sched with due := insertDue (s.entryNow i) s.sched.due } := by
    rw [h]; rfl
  have hother : ∀ j, j ≠ i → t.slot j = s.slot j := fun j hj => by
    rw [h]; exact s.slot_setSlot_ne _ _ _ hj
  have hw := State.noEntry_iff_share.1 hn
  have hkeep : OthersKeep s t i := ⟨hrun, fun j hj => by rw [hother j hj], fun j hj => by
    rw [hsched]; exact s.sched.share_insert_ne (s.entryNow i) hj⟩
  obtain ⟨hmarked, hbalanced⟩ := ha i
  obtain ⟨-, hruns⟩ := (Slot.balanced_of_running hs).1 hbalanced
  refine hkeep.accounted (fun j _ => ha j) ?_
  have hshare := s.sched.share_insert_self (s.entryNow i) (List.eq_nil_of_length_eq_zero hw)
  rw [show (s.entryNow i).slot = i from rfl] at hshare
  unfold State.AccountsAt
  rw [hslot, hrun, hsched, hshare]
  have hraised := hruns.raiseDue hdue hback
  rw [hw] at hraised
  have hmarked' : (s.slot i).raiseDue.Marked (s.sched.share i) (s.run.runState = .faulted) := by
    rw [Slot.raiseDue_eq]; exact hmarked.congr rfl rfl rfl
  have hstate : (s.slot i).raiseDue.state = .running := by rw [Slot.raiseDue_eq]; exact hs
  have hfirings : (s.slot i).raiseDue.firings = (s.slot i).firings := by rw [Slot.raiseDue_eq]
  refine ⟨hmarked'.waiting fun b hb => ?_,
    (Slot.balanced_of_running hstate).2 ⟨Nat.le_refl 1, hraised⟩⟩
  rw [hfirings]
  exact List.mem_singleton.1 hb

theorem State.accounted_stopTimer (ha : ∀ j, s.AccountsAt j) (hs : (s.slot i).state = .running)
    (hy : y.essence = { s.slot i with intervalTimer := none, nextDue := none }.essence) :
    ∀ j, (s.setSlot i y).AccountsAt j := by
  obtain ⟨hmarked, hbalanced⟩ := ha i
  obtain ⟨hw, hruns⟩ := (Slot.balanced_of_running hs).1 hbalanced
  have hstopped : ({ s.slot i with intervalTimer := none, nextDue := none } : Slot).AccountsFor
      (s.sched.share i) (s.run.runState = .faulted) :=
    ⟨hmarked.congr rfl rfl rfl, (Slot.balanced_of_running (by exact hs)).2 ⟨hw, hruns.stopTimer⟩⟩
  exact State.accounted_setSlot (fun j _ => ha j) (hstopped.congr (Slot.books_of_essence hy))

/-- What follows a resolved scan keeps the account, if a back-to-back order has none outstanding. -/
theorem ScanResolved.accounted (h : ScanResolved s t i) (ha : ∀ j, s.AccountsAt j)
    (hback : (s.slot i).state = .running → (s.slot i).order.interval = 0 →
      (s.slot i).outstanding (s.sched.share i).waiting.length = 0) : ∀ j, t.AccountsAt j := by
  unfold ScanResolved at h
  dsimp only at h
  split at h
  next he =>
    obtain ⟨hs, hn, hres⟩ := he
    split at h
    · exact h.accounted ha (by rw [hs]; nofun) (by rw [hs]; nofun) fun _ =>
        ⟨hs, mt (Slot.scanCount_eq_zero _).1 hn, hres⟩
    · obtain ⟨y, hy, rfl⟩ := h
      exact State.accounted_stopTimer ha hs hy.essence
  · split at h
    next hc =>
      obtain ⟨hs, hz, hdue⟩ := hc
      refine h.accounted ha ?_ hs (fun hn => ?_) (hback hs)
      · exact State.noEntry_iff_share.2 (Slot.eq_zero_of_outstanding (hback hs hz)).1
      · exact hdue.resolve_left (mt (Slot.scanCount_eq_zero _).2 hn)
    · obtain ⟨y, hy, rfl⟩ := h
      exact State.accounted_setSlot (fun j _ => ha j)
        ((ha i).congr (Slot.books_of_essence hy.essence))

theorem State.accounted_endFiring (ha : ∀ j, s.AccountsAt j) : ∀ j, (s.endFiring i).AccountsAt j := by
  unfold State.endFiring
  dsimp only
  split
  next he =>
    obtain ⟨hs, hn, hres⟩ := (Slot.ending_iff _).1 he
    split
    · exact (s.closeSlot_ends i .ok s.now).accounted ha (by rw [hs]; nofun) (by rw [hs]; nofun)
        fun _ => ⟨hs, mt (Slot.scanCount_eq_zero _).1 hn, hres⟩
    · obtain ⟨y, hy, hnote⟩ := (s.setSlot i
        { s.slot i with intervalTimer := none, nextDue := none }).noteRequest_asked i
      rw [State.slot_setSlot_self] at hy
      rw [hnote, State.setSlot_setSlot]
      exact State.accounted_stopTimer ha hs hy.essence
  · exact ha

/-- A scan of a grid becomes due: it waits, or is counted missed while an older one waits (R67). -/
theorem State.accounted_scanDue (ha : ∀ j, s.AccountsAt j) (hs : (s.slot i).state = .running)
    (hinterval : (s.slot i).order.interval ≠ 0) (htimer : (s.slot i).intervalTimer ≠ none) :
    ∀ j, (s.scanDue i).AccountsAt j := by
  obtain ⟨hmarked, hbalanced⟩ := ha i
  obtain ⟨hle, hruns⟩ := (Slot.balanced_of_running hs).1 hbalanced
  have hdue : (s.slot i).scanCount ≠ 0 → (s.slot i).dueCount < (s.slot i).scanCount := fun hn => by
    obtain ⟨-, -, ht⟩ := hruns.grid hn
    exact ht htimer
  by_cases hn : s.NoEntry i
  · exact (s.scanDue_becomesDue i hn).accounted ha hn hs hdue fun h => absurd h hinterval
  · rw [s.scanDue_missed i hn]
    refine State.accounted_endFiring (State.accounted_setSlot (fun j _ => ha j) ⟨?_, ?_⟩)
    · rw [Slot.raiseDue_eq]; exact hmarked.congr rfl rfl rfl
    · have hstate : (s.slot i).raiseDue.afterMiss.state = .running := by
        rw [Slot.raiseDue_eq]; exact hs
      exact (Slot.balanced_of_running hstate).2
        ⟨hle, (hruns.raiseDue hdue fun h => absurd h hinterval).afterMiss⟩

end Sys2Proof.Machine
end

/-! ## The converter and the Staging Buffer keep the account (O57) -/

section
namespace Sys2Proof.Machine

variable {s t u : State} {i j : Fin 32} {x y : Slot} {p : Share} {f : Prop} {w w' : Nat}

/-! ### Slots with scans outstanding -/

/-- Only an order in a firing, or one that has ended, has scans outstanding. -/
theorem Slot.Balanced.busy (b : x.Balanced w) (h : x.outstanding w ≠ 0) :
    (x.state = .running ∧ w ≤ 1 ∧ x.Runs w) ∨ (x.state = .closing ∧ x.Closes w) := by
  rcases x.state_cases with hs | hs | hs | hs
  · exact absurd ((Slot.balanced_of_free hs).1 b).outstanding h
  · exact absurd ((Slot.balanced_of_waits hs).1 b).outstanding h
  · exact .inl ⟨hs, (Slot.balanced_of_running hs).1 b⟩
  · exact .inr ⟨hs, (Slot.balanced_of_closing hs).1 b⟩

/-- A scan that moves from one unit to the next keeps the account. -/
theorem Slot.Balanced.moved (b : x.Balanced w) {c : Bool} {k : Nat} (hbusy : x.outstanding w ≠ 0)
    (hw : w' ≤ w)
    (h : ({ x with inConversion := c, inStaging := k } : Slot).outstanding w' = x.outstanding w) :
    ({ x with inConversion := c, inStaging := k } : Slot).Balanced w' := by
  rcases b.busy hbusy with ⟨hs, hle, b⟩ | ⟨hs, b⟩
  · exact (Slot.balanced_of_running (by exact hs)).2 ⟨hw.trans hle, b.moved h⟩
  · obtain rfl : w' = w := by have := b.waiting; omega
    exact (Slot.balanced_of_closing (by exact hs)).2 (b.moved h)

/-! ### Scans that change units -/

section
variable {q : Scheduler}

theorem Scheduler.share_grant_ne {d : DueEntry} {ds : List DueEntry} {c : Conversion}
    (hdue : q.due = d :: ds) (hidle : q.conversion = none) (hc : c.slot = d.slot)
    (hj : j ≠ d.slot) :
    ({ q with due := ds, conversion := some c } : Scheduler).share j = q.share j := by
  simp [Scheduler.share, hdue, hidle, hc, Ne.symm hj, Option.filter]

theorem Scheduler.share_grant_self {d : DueEntry} {ds : List DueEntry} {c : Conversion}
    (hdue : q.due = d :: ds) (hc : c.slot = d.slot) :
    ∃ l, (q.share d.slot).waiting = d.firingIndex :: l ∧
      ({ q with due := ds, conversion := some c } : Scheduler).share d.slot
        = { q.share d.slot with waiting := l, converting := some c.firingIndex } := by
  simp [Scheduler.share, hdue, hc, Option.filter]

theorem Scheduler.share_scanEnds_ne {c : Conversion} {r : ScanResult}
    (hconv : q.conversion = some c) (hr : r.slot = c.slot) (hj : j ≠ c.slot) :
    ({ q with conversion := none, staging := q.staging ++ [r] } : Scheduler).share j
      = q.share j := by
  simp [Scheduler.share, hconv, hr, Ne.symm hj, Option.filter]

theorem Scheduler.share_scanEnds_self {c : Conversion} {r : ScanResult}
    (hconv : q.conversion = some c) (hr : r.slot = c.slot) :
    (q.share c.slot).converting = some c.firingIndex ∧
      ({ q with conversion := none, staging := q.staging ++ [r] } : Scheduler).share c.slot
        = { q.share c.slot with
            converting := none, staged := (q.share c.slot).staged ++ [r.firingIndex] } := by
  simp [Scheduler.share, hconv, hr, Option.filter]

theorem Scheduler.share_take_ne {r : ScanResult} (hr : q.staging.head? = some r)
    (hj : j ≠ r.slot) :
    ({ q with staging := q.staging.tail } : Scheduler).share j = q.share j := by
  obtain ⟨l, hl⟩ := List.head?_eq_some_iff.1 hr
  simp [Scheduler.share, hl, Ne.symm hj]

theorem Scheduler.share_take_self {r : ScanResult} (hr : q.staging.head? = some r) :
    ∃ l, (q.share r.slot).staged = r.firingIndex :: l ∧
      ({ q with staging := q.staging.tail } : Scheduler).share r.slot
        = { q.share r.slot with staged := l } := by
  obtain ⟨l, hl⟩ := List.head?_eq_some_iff.1 hr
  simp [Scheduler.share, hl]

theorem Scheduler.share_converting_none (h : q.conversion = none) :
    (q.share i).converting = none := by
  simp [Scheduler.share, h]

end

/-- The head of the Due Queue leaves it for the converter (R73). -/
theorem State.accounted_grantHead (ha : ∀ j, s.AccountsAt j) (hlive : s.Live)
    (hidle : s.sched.conversion = none) : ∀ j, s.grantHead.AccountsAt j := by
  unfold State.grantHead
  split
  · exact ha
  next d ds hd =>
    obtain ⟨hmarked, hbalanced⟩ := ha d.slot
    obtain ⟨l, hl, hself⟩ := Scheduler.share_grant_self hd (c := s.startScan d) rfl
    have hc : (s.slot d.slot).inConversion = false := by
      rw [hmarked.converting (s.not_faulted_of_live hlive), Scheduler.share_converting_none hidle]
      rfl
    rw [hl] at hbalanced
    refine OthersKeep.accounted (s := s) (i := d.slot) ⟨rfl, fun j hj => ?_, fun j hj => ?_⟩
      (fun j _ => ha j) ?_
    · rw [State.slot_setSlot_ne _ _ _ _ hj]; rfl
    · exact Scheduler.share_grant_ne hd hidle rfl hj
    · unfold State.AccountsAt
      rw [State.slot_setSlot_self, State.setSlot_sched, hself]
      refine ⟨⟨fun _ => rfl, hmarked.staged, fun b hb => hmarked.index b ?_⟩,
        hbalanced.moved (c := true) (k := (s.slot d.slot).inStaging) ?_ (Nat.le_succ _) ?_⟩
      · rw [hl]
        rcases hb with hb | hb | hb
        · exact .inl (List.mem_cons_of_mem _ hb)
        · exact .inl (by cases hb; exact List.mem_cons_self)
        · exact .inr (.inr hb)
      · unfold Slot.outstanding; simp only [List.length_cons]; omega
      · unfold Slot.outstanding; simp only [hc, List.length_cons]; simp

/-- The scan in conversion leaves it for the Staging Buffer (R82). -/
theorem State.accounted_endScan (ha : ∀ j, s.AccountsAt j) (hlive : s.Live) {c d : Conversion}
    (hconv : s.sched.conversion = some c) (hslot : d.slot = c.slot)
    (hindex : d.firingIndex = c.firingIndex) : ∀ j, (s.endScan d).AccountsAt j := by
  obtain ⟨hmarked, hbalanced⟩ := ha c.slot
  obtain ⟨hsome, hself⟩ := Scheduler.share_scanEnds_self (r := s.scanResult d) hconv hslot
  have hc : (s.slot c.slot).inConversion = true := by
    rw [hmarked.converting (s.not_faulted_of_live hlive), hsome]; rfl
  unfold State.endScan
  rw [hslot]
  refine OthersKeep.accounted (s := s) (i := c.slot) ⟨rfl, fun j hj => ?_, fun j hj => ?_⟩
    (fun j _ => ha j) ?_
  · rw [State.slot_setSlot_ne _ _ _ _ hj]; rfl
  · exact Scheduler.share_scanEnds_ne hconv hslot hj
  · unfold State.AccountsAt
    rw [State.slot_setSlot_self, State.setSlot_sched, hself]
    refine ⟨⟨fun _ => rfl, ?_, fun b hb => hmarked.index b ?_⟩,
      (hbalanced.moved (c := false) (k := (s.slot c.slot).inStaging + 1) ?_ le_rfl ?_).congr rfl⟩
    · show (s.slot c.slot).inStaging + 1 = _
      rw [List.length_append, hmarked.staged]; rfl
    · rw [hsome]
      rcases hb with hb | hb | hb
      · exact .inl hb
      · cases hb
      · rcases List.mem_append.1 hb with hb | hb
        · exact .inr (.inr hb)
        · rw [List.mem_singleton.1 hb]
          exact .inr (.inl (congrArg some hindex.symm))
    · unfold Slot.outstanding; simp [hc]
    · unfold Slot.outstanding; simp [hc]; omega

/-- A result of the present firing leaves the Staging Buffer and is counted. -/
theorem Slot.AccountsFor.afterTaken {b : Byte} {l : List Byte} (h : x.AccountsFor p f)
    (hl : p.staged = b :: l) (hp : x.closingPage = none) (page : Option OpenPage)
    {stored dropped : BitVec 32} (hsum : stored + dropped = x.stored + x.dropped + 1) :
    (x.afterTaken page stored dropped).AccountsFor { p with staged := l } f := by
  obtain ⟨hmarked, hbalanced⟩ := h
  have hcount : x.inStaging = l.length + 1 := by rw [hmarked.staged, hl]; rfl
  have hne : x.inStaging ≠ 0 := by omega
  refine ⟨⟨hmarked.converting, ?_, fun c hc => hmarked.index c ?_⟩, ?_⟩
  · show x.inStaging - 1 = l.length
    omega
  · rw [hl]
    exact hc.imp_right fun hc => hc.imp_right (List.mem_cons_of_mem _)
  · rcases hbalanced.busy (by unfold Slot.outstanding; omega) with ⟨hs, hw, b⟩ | ⟨hs, b⟩
    · exact (Slot.balanced_of_running (by exact hs)).2 ⟨hw, b.afterTaken page hne hp hsum⟩
    · exact (Slot.balanced_of_closing (by exact hs)).2 (b.afterTaken page hne hp hsum)

/-- A back-to-back firing has one scan outstanding at most, so none once it is counted (R65). -/
theorem Slot.Runs.outstanding_afterTaken_eq_zero (b : x.Runs w) (hs : x.inStaging ≠ 0)
    (hi : x.order.interval = 0) (page : Option OpenPage) (stored dropped : BitVec 32) :
    (x.afterTaken page stored dropped).outstanding w = 0 := by
  obtain ⟨hle, -⟩ := b.backToBack hi
  have := x.outstanding_afterTaken (w := w) page (stored := stored) (dropped := dropped) hs
  omega

theorem Slot.outstanding_congr (h : y.books = x.books) : y.outstanding w = x.outstanding w := by
  rw [(Slot.eq_of_books h).1]; rfl

/-- A result leaves the Staging Buffer, stored or dropped, and is counted (R51, R95, R96); a
back-to-back firing has none left then. -/
theorem TakesResult.accounted {r : ScanResult} (h : TakesResult s u r) (ha : ∀ j, s.AccountsAt j)
    (hp : (s.slot r.slot).closingPage = none) :
    (∀ j, u.AccountsAt j) ∧ ((u.slot r.slot).state = .running →
      (u.slot r.slot).order.interval = 0 →
        (u.slot r.slot).outstanding (u.sched.share r.slot).waiting.length = 0) := by
  obtain ⟨page, stored, dropped, hsum, hessence⟩ := h.slot
  obtain ⟨l, hl, hself⟩ := Scheduler.share_take_self h.head
  rw [← h.sched] at hself
  have hindex : r.firingIndex = BitVec.ofNat 8 (s.slot r.slot).firings :=
    (ha r.slot).1.index _ (.inr (.inr (by rw [hl]; exact List.mem_cons_self)))
  have hbooks : (u.slot r.slot).books
      = ((s.slot r.slot).afterTaken page stored dropped).books := by
    rw [hindex] at hessence
    exact Slot.books_of_essence hessence
  have hrun : u.run.runState = s.run.runState := State.runState_of_control h.control
  refine ⟨OthersKeep.accounted (s := s) (i := r.slot) ⟨hrun, fun j hj => ?_, fun j hj => ?_⟩
    (fun j _ => ha j) ?_, fun hs hi => ?_⟩
  · rw [h.other j hj]
  · rw [h.sched]; exact Scheduler.share_take_ne h.head hj
  · unfold State.AccountsAt
    rw [hself, hrun]
    exact ((ha r.slot).afterTaken hl hp page hsum).congr hbooks
  · have hstate : (s.slot r.slot).state = .running := (Slot.state_of_books hbooks).symm.trans hs
    have horder : (u.slot r.slot).order = (s.slot r.slot).order :=
      (congrArg Slot.order hbooks : (u.slot r.slot).books.order = _)
    obtain ⟨-, hruns⟩ := (Slot.balanced_of_running hstate).1 (ha r.slot).2
    rw [hself, Slot.outstanding_congr hbooks]
    refine hruns.outstanding_afterTaken_eq_zero ?_ (horder ▸ hi) page stored dropped
    rw [(ha r.slot).1.staged, hl]; nofun

/-- What follows a result that leaves the Staging Buffer keeps the account (R53, R65). -/
theorem TakesResult.accounted_afterResolved {r : ScanResult} (h : TakesResult s u r)
    (ha : ∀ j, s.AccountsAt j) (hp : (s.slot r.slot).closingPage = none) :
    ∀ j, (u.afterResolved r.slot).AccountsAt j := by
  obtain ⟨hu, hback⟩ := h.accounted ha hp
  refine (u.afterResolved_scanResolved r.slot (fun hs hi => ?_) fun hs hn => ?_).accounted hu hback
  · exact State.noEntry_iff_share.2 (Slot.eq_zero_of_outstanding (hback hs hi)).1
  · obtain ⟨-, hruns⟩ := (Slot.balanced_of_running hs).1 (hu r.slot).2
    obtain ⟨hsum, -⟩ := hruns.grid (mt (Slot.scanCount_eq_zero _).1 hn)
    omega

end Sys2Proof.Machine
end

/-! ## Every step keeps the account (O57) -/

section
namespace Sys2Proof.Machine

variable {s t u : State} {i j : Fin 32}

/-- An order that enters the watch has not ended (R18). -/
theorem EntersWatch.not_closing {a : ArmOrder} {time : Timestamp} (h : EntersWatch s t i a time) :
    (t.slot i).state ≠ .closing := by
  unfold EntersWatch at h
  dsimp only at h
  split at h
  · split at h
    · rw [h, State.slot_setSlot_self]; nofun
    · split at h
      · obtain ⟨hslot, -⟩ := h
        rw [hslot]; nofun
      · rw [h, State.slot_setSlot_self]; nofun
  · rw [h, State.slot_setSlot_self]; nofun

/-- A firing that completes first keeps the account, and its order has not ended (R61). -/
theorem State.accounted_completeFiring (ha : ∀ j, s.AccountsAt j)
    (hc : (s.slot i).state ≠ .closing) :
    (∀ j, (s.completeFiring i).AccountsAt j) ∧ ((s.completeFiring i).slot i).state ≠ .closing := by
  unfold State.completeFiring
  split
  next h =>
    have hr := (s.canReturn_iff i).1 h
    obtain ⟨a, hk⟩ := hr.arm
    have hrests := State.restsAt_counted ha hr (s.slot i).restartArm
    refine ⟨State.accounted_returnToWatch ha hr, ?_⟩
    exact (State.enterWatch_entersWatch _ i a s.now
      (by rw [State.slot_setSlot_self]; exact hk) hrests.noEntry).not_closing
  · exact ⟨ha, hc⟩

theorem State.accounted_cancels (ha : ∀ j, s.AccountsAt j) (o : HeldOrder)
    (hfree : (s.slot i).state ≠ .free) (hclosing : (s.slot i).state ≠ .closing) :
    ∀ j, (((s.completeFiring i).takeAndAnswer o .ok).closeSlot i .cancelled s.now).AccountsAt j := by
  obtain ⟨hcompleted, hopen⟩ := s.accounted_completeFiring ha hclosing
  have hoccupied : ((s.completeFiring i).slot i).state ≠ .free :=
    mt ((s.continues_completeFiring i).free i).1 hfree
  have hanswered : ∀ j, ((s.completeFiring i).takeAndAnswer o .ok).AccountsAt j := hcompleted
  exact (State.closeSlot_ends _ i .cancelled s.now).accounted hanswered hoccupied hopen nofun

/-- Every move keeps the account of every slot's scans (R52). -/
theorem Move.accounted (h : Move s t) (ha : ∀ j, s.AccountsAt j) : ∀ j, t.AccountsAt j := by
  cases h with
  | quiet _ he hf _ => exact fun j => State.accountsAt_of_essence he hf (ha j)
  | faults code => exact fun j => State.accountsAt_enterFaulted code (ha j)
  | empties _ he _ _ => exact fun j => State.accountsAt_of_essence he nofun (State.reset_accountsAt j)
  | ends i reason time hfree hclosing hne =>
    exact (s.closeSlot_ends i reason time).accounted ha hfree hclosing fun h => absurd h hne
  | cancels i o _ hfree hclosing => exact s.accounted_cancels ha o hfree hclosing
  | rewatches i y w hbefore hafter =>
    have hstate : y.state = .watching w := (congrArg Slot.state hafter : y.essence.state = _)
    exact (State.RestsAt.of_waits ha (.inr (.inl hbefore))).accounted_setSlot
      (Slot.books_of_essence hafter) (.inr (.inl ⟨w, hstate⟩))
  | fires i cause onset time hw =>
    have hrests := State.RestsAt.of_waits ha hw
    exact hrests.fires (s.fire_fires i cause onset time hrests.noEntry)
  | opens i time hg => exact State.accounted_opens ha hg time
  | returns i hr => exact State.accounted_returnToWatch ha hr
  | settlesPage i _ => exact State.accounted_pageSettled ha
  | completes i hc => exact State.accounted_completes ha hc
  | frees i hlive hon _ => exact State.accounted_frees ha hlive hon
  | scanDue i hs hi ht => exact State.accounted_scanDue ha hs hi ht
  | grants hlive hidle => exact State.accounted_grantHead ha hlive hidle
  | scanEnds c d hlive hc hs hi => exact State.accounted_endScan ha hlive hc hs hi
  | resolves u r hr hp => exact hr.accounted_afterResolved ha hp
  | closeBegins i o flags requested hp hr => exact State.accounted_closeBegins ha hp hr
  | closeTaken i c y hp hy => exact State.accounted_closeTaken ha hp hy
  | admits i order target hmay hfree _ _ _ =>
    obtain ⟨hrun, -⟩ := s.mayTake_iff.1 hmay
    have hf : ¬ s.run.runState = .faulted := s.not_faulted_of_live (.inl hrun)
    have hheld : ∀ j, s.takeHeld.AccountsAt j := ha
    exact State.accounted_giveSlot hheld hf hfree order target

/-- Settles O57, move by move, with the account written out for each state of a slot. -/
theorem everyStepKeepsScansAccounted : Obligations.EveryStepKeepsScansAccounted :=
  fun _ _ => kept_of_step fun _ _ h hm =>
    scansAccounted_iff.2 (hm.accounted (scansAccounted_iff.1 h))

end Sys2Proof.Machine
end

/-! ## The end of an order (O13) -/

section
namespace Sys2Proof.Machine

variable (s : State) {i : Fin 32}

/-- The fence after the model's test for a card without orders (R121). -/
theorem State.fenceIfEmpty_fence :
    ∃ fence, ((∀ j, (s.slot j).state = .free) → fence = s.fetch.fence.map fun f => f.takes .ok s.now)
      ∧ ((∃ j, (s.slot j).state ≠ .free) → fence = s.fetch.fence)
      ∧ s.fenceIfEmpty = { s with fetch.fence := fence } := by
  by_cases h : ∀ j, (s.slot j).state = .free
  · exact ⟨_, fun _ => rfl, fun ⟨j, hj⟩ => absurd (h j) hj, s.fenceIfEmpty_of_allFree h⟩
  · obtain ⟨j, hj⟩ := not_forall.1 h
    exact ⟨_, fun hfree => absurd hfree h, fun _ => rfl, s.fenceIfEmpty_of_occupied j hj⟩

theorem exec_orderDoneTaken (hlive : s.Live) (hroom : s.HasRoom) (hon : (s.slot i).HandedOn)
    (hlinks : ∀ j, ¬ (s.slot j).LinksTo i) :
    exec (.orderDoneTaken i) s =
      .next ((s.posted (.orderDone (s.slot i).orderDone)).setSlot i Slot.free).fenceIfEmpty := by
  refine s.whenever_true _ ?_
  simp [State.canTakeOrderDone, s.isLive_iff.2 hlive, s.postRoom_iff.2 hroom,
    (Slot.handedOn_iff _).2 hon, (s.hasFollower_false_iff i).2 hlinks]

theorem Slot.orderDone_eq {x : Slot} {reason : EndReason} {ended : Timestamp}
    (hr : x.endReason = some reason) (he : x.endTime = some ended) :
    x.orderDone = { status := reason.status, tag := x.order.tag, orderNumber := x.order.number,
                    detail := 0, firings := BitVec.ofNat 16 x.firings, pages := x.pagesPosted,
                    ended := ended, stored := x.stored, missed := x.missed,
                    dropped := x.dropped } := by
  rw [Slot.orderDone, hr, he, Option.getD_some, Option.getD_some]

/-- Settles O13: the slot becomes FREE, and then the fence is looked at. -/
theorem orderDoneFreesSlot : Obligations.OrderDoneFreesSlot := by
  intro s i reason ended x hlive hroom hstate hreason hended hconv hstaged hfired hopen hclosing
    hok hother hlinks
  have hon : x.HandedOn := by
    refine ⟨hstate, hconv, hstaged, hfired, hopen, hclosing, fun h => ?_, fun h => ?_⟩
    · exact hok (Option.some.inj (hreason.symm.trans h))
    · exact hother fun e => h (hreason.trans (congrArg some e))
  obtain ⟨fence, hempty, hoccupied, hfence⟩ :=
    ((s.posted (.orderDone x.orderDone)).setSlot i Slot.free).fenceIfEmpty_fence
  have hfreed : ((s.posted (.orderDone x.orderDone)).setSlot i Slot.free).slot i = Slot.free :=
    State.slot_setSlot_self _ _ _
  have hkept : ∀ j, j ≠ i →
      ((s.posted (.orderDone x.orderDone)).setSlot i Slot.free).slot j = s.slot j :=
    fun j hj => State.slot_setSlot_ne _ _ _ _ hj
  refine ⟨fence, fun h => hempty fun j => ?_, fun ⟨j, hj, hs⟩ => hoccupied ⟨j, ?_⟩, ?_⟩
  · by_cases hj : j = i
    · rw [hj, hfreed]; rfl
    · rw [hkept j hj]; exact h j hj
  · rw [hkept j hj]; exact hs
  · rw [exec_orderDoneTaken s hlive hroom hon hlinks, hfence, Slot.orderDone_eq hreason hended]
    cases reason <;> rfl

end Sys2Proof.Machine
end

/-! ## The grant (O16) -/

section
namespace Sys2Proof.Machine

/-- Settles O16: with an entry waiting the grant is that of its head. -/
theorem grantStartsHeadScan : Obligations.GrantStartsHeadScan := by
  refine fun s => ⟨fun d ds hlive hidle hroom hdue => ?grants, fun h => ?waits⟩
  case grants =>
    have hcan : s.canGrant = true := s.canGrant_iff.2 ⟨hlive, hidle, hroom, by rw [hdue]; nofun⟩
    refine (s.whenever_true _ hcan).trans ?_
    unfold State.grantHead
    rw [hdue]
    rfl
  case waits =>
    refine s.whenever_false _ ((Bool.not_eq_true _).mp fun hcan => ?_)
    obtain ⟨hlive, hidle, hroom, hdue⟩ := s.canGrant_iff.1 hcan
    rcases h with h | h | h | h
    · exact h hlive
    · exact h hidle
    · omega
    · exact hdue h

end Sys2Proof.Machine
end

/-! ## Results are stored or dropped (O21, O22) -/

section
namespace Sys2Proof.Machine

variable (s : State) {u : State} {r : ScanResult} {rest : List ScanResult}

/-- A scan that is stored or dropped resolves one scan at most (R51). -/
theorem Slot.resolvedAfter_le (x : Slot) (firing : Byte) :
    x.resolvedAfter firing ≤ x.resolved + 1 := by
  unfold Slot.resolvedAfter; split <;> omega

/-- Once one more result of the slot is resolved, the resolution is the step of R53 and R65, if an
unresolved scan had become due. -/
theorem State.scanResolved_of_taken
    (hslot : ∃ page misses firing staged stored dropped,
      u.slot r.slot =
        { s.slot r.slot with
          openPage := page
          carriedMisses := misses
          carriedFiring := firing
          inStaging := staged
          stored := stored
          dropped := dropped
          resolved := (s.slot r.slot).resolvedAfter r.firingIndex })
    (hdue : u.sched.due = s.sched.due)
    (hback : (s.slot r.slot).state = .running → (s.slot r.slot).order.interval = 0 →
      s.NoEntry r.slot)
    (hres : (s.slot r.slot).state = .running → (s.slot r.slot).order.scanCount ≠ 0 →
      (s.slot r.slot).resolved < (s.slot r.slot).dueCount) :
    ScanResolved u (u.afterResolved r.slot) r.slot := by
  obtain ⟨page, misses, firing, staged, stored, dropped, hslot⟩ := hslot
  refine u.afterResolved_scanResolved r.slot ?_ ?_ <;> rw [hslot]
  · unfold State.NoEntry
    rw [hdue]
    exact hback
  · exact fun hs hn => ((s.slot r.slot).resolvedAfter_le r.firingIndex).trans (hres hs hn)

/-! ### The oldest result (R94, R105) -/

theorem exec_resultTaken_waits (hstaging : s.sched.staging = r :: rest)
    (h : ¬ s.PageWriterTakes r.work.arose) : exec .resultTaken s = .next s := by
  have hnone : s.nextResult = none := by
    have hmay : s.mayWork r.work.arose = false := by
      rw [← Bool.not_eq_true, s.mayWork_iff]; exact h
    simp [State.nextResult, hstaging, Option.filter, hmay]
  show execResultTaken s = _
  rw [execResultTaken, hnone]

theorem exec_resultTaken_places (hlive : s.Live) (hstaging : s.sched.staging = r :: rest)
    (h : s.PageWriterTakes r.work.arose) : exec .resultTaken s = .next (s.placeResult r) := by
  have hsome : s.nextResult = some r := by
    simp [State.nextResult, s.isLive_iff.2 hlive, hstaging, Option.filter,
      (s.mayWork_iff _).2 h]
  show execResultTaken s = _
  rw [execResultTaken, hsome]

/-! ### Table 5-3 -/

theorem State.placeResult_of_fits {p : OpenPage} (hp : (s.slot r.slot).openPage = some p)
    (hfit : p.fill + (12 + 2 * r.values.length + 3) / 4 * 4 ≤ s.run.copy.pageSize.toNat) :
    s.placeResult r = (s.afterStore r p s.pages.cache).afterResolved r.slot := by
  have hfits : s.fits p r = true := decide_eq_true hfit
  simp only [State.placeResult, hp, hfits, if_true, s.storeResult_eq]

theorem State.placeResult_of_cache {d : Descriptor} {ds : List Descriptor}
    (hp : (s.slot r.slot).openPage = none) (hcache : s.pages.cache = d :: ds) :
    s.placeResult r = (s.afterStore r d.openPage ds).afterResolved r.slot := by
  simp only [State.placeResult, hp, hcache, State.storeResult_eq]
  rfl

theorem State.placeResult_of_dry (hp : (s.slot r.slot).openPage = none)
    (hcache : s.pages.cache = []) :
    s.placeResult r = (s.afterDrop r).afterResolved r.slot := by
  simp only [State.placeResult, hp, hcache, s.dropResult_eq]

theorem State.afterStore_slot (p : OpenPage) (cache : List Descriptor) :
    (s.afterStore r p cache).slot r.slot =
      { s.slot r.slot with
        openPage := some (s.pageWith p r)
        carriedMisses := 0
        inStaging := (s.slot r.slot).inStaging - 1
        stored := (s.slot r.slot).stored + 1
        resolved := (s.slot r.slot).resolvedAfter r.firingIndex } :=
  State.slot_setSlot_self _ _ _

theorem State.afterDrop_slot :
    (s.afterDrop r).slot r.slot =
      { s.slot r.slot with
        carriedMisses := min ((s.slot r.slot).carriedFor r.firingIndex + r.missedBefore) 65535
        carriedFiring := some r.firingIndex
        inStaging := (s.slot r.slot).inStaging - 1
        dropped := (s.slot r.slot).dropped + 1
        resolved := (s.slot r.slot).resolvedAfter r.firingIndex } :=
  State.slot_setSlot_self _ _ _

/-- Settles O21: the result is placed by Table 5-3, and then its slot takes the resolution. -/
theorem resultIsStored : Obligations.ResultIsStored := by
  intro s r rest x hlive hstaging
  refine ⟨exec_resultTaken_waits s hstaging, fun htakes hback hres => ?_⟩
  have hplaces := exec_resultTaken_places s hlive hstaging htakes
  have hresolved : ∀ p cache, ScanResolved (s.afterStore r p cache)
      ((s.afterStore r p cache).afterResolved r.slot) r.slot := fun p cache =>
    s.scanResolved_of_taken ⟨_, _, _, _, _, _, s.afterStore_slot p cache⟩ rfl hback hres
  refine ⟨fun p hp hfit => ⟨_, ?_, hresolved p _⟩, fun d ds hp hcache => ⟨_, ?_, hresolved _ ds⟩⟩
  · rw [hplaces, s.placeResult_of_fits hp hfit]
  · rw [hplaces, s.placeResult_of_cache hp hcache]
    rfl

/-- Settles O22: with the cache empty the result is dropped; then its slot takes the resolution. -/
theorem resultIsDroppedWithoutPage : Obligations.ResultIsDroppedWithoutPage := by
  intro s r rest x hlive hstaging
  refine ⟨fun ⟨j, hj⟩ => exec_resultTaken_waits s hstaging fun ⟨hnone, _⟩ => hj (hnone j),
    fun htakes hback hres hp hcache => ⟨(s.afterDrop r).afterResolved r.slot, ?_, ?_⟩⟩
  · rw [exec_resultTaken_places s hlive hstaging htakes, s.placeResult_of_dry hp hcache]
  · exact s.scanResolved_of_taken ⟨_, _, _, _, _, _, s.afterDrop_slot⟩ rfl hback hres

end Sys2Proof.Machine
end

/-! ## The close of a page (O24) -/

section
namespace Sys2Proof.Machine

variable (s : State) {i : Fin 32} {c : ClosingPage}

/-- The page whose close can be taken, by the conditions of R98. -/
theorem State.closablePage_of_room (hlive : s.Live) (hroom : s.HasRoom)
    (hfired : (s.slot i).pendingFired = none) : s.closablePage i = (s.slot i).closingPage := by
  simp [State.closablePage, s.isLive_iff.2 hlive, s.postRoom_iff.2 hroom, hfired]

theorem State.closablePage_of_no_room
    (h : ¬ s.HasRoom ∨ (s.slot i).pendingFired ≠ none) : s.closablePage i = none := by
  refine if_neg fun hc => ?_
  simp only [Bool.and_eq_true, s.postRoom_iff, Option.isNone_iff_eq_none] at hc
  obtain ⟨⟨-, hroom⟩, hfired⟩ := hc
  exact h.elim (absurd hroom) (absurd hfired)

theorem State.undeliveredAfter_congr {u : State} (h : u.link = s.link) (kind : WriteClass) :
    u.undeliveredAfter kind = s.undeliveredAfter kind := by
  unfold State.undeliveredAfter; rw [h]

/-- The close step writes the header and posts the PAGE record from what the end of the stall left
(R98, R99). -/
theorem State.closePage_eq (i : Fin 32) (c : ClosingPage) :
    let u := s.afterStall
    let x := u.slot i
    s.closePage i c =
      ({ u.setSlot i (x.pageClosed c) with
         link.undelivered := s.undeliveredAfter .page
         link.issued := s.link.issued ++
           [.memory c.page.descriptor.address
             (pageHeaderBytes x.order.tag x.pageSequence (BitVec.ofNat 16 c.page.scans) c.flags
               c.page.first)] } : State).posted (.page (x.pageRecord c)) := by
  have hlink : s.afterStall.link = s.link := by rw [← State.endStall_afterStall, State.endStall_link]
  unfold State.closePage
  rw [State.endStall_afterStall, ← State.undeliveredAfter_congr s hlink, ← hlink]
  rfl

/-- Settles O24: the close is taken exactly when R98 lets it. -/
theorem pageCloseWritesHeaderThenPosts : Obligations.PageCloseWritesHeaderThenPosts := by
  intro s i c u x hlive hc
  refine ⟨fun hroom hfired => ⟨x.pageClosed c, Slot.pageSettled_settles _, ?_⟩, fun h => ?_⟩
  · show execPageClose i s = _
    rw [execPageClose, s.closablePage_of_room hlive hroom hfired, hc]
    exact congrArg _ (s.closePage_eq i c)
  · show execPageClose i s = _
    rw [execPageClose, s.closablePage_of_no_room h]

end Sys2Proof.Machine
end

/-! ## SAMPLE and CANCEL orders (O32, O33) -/

section
namespace Sys2Proof.Machine

variable (s : State) {i k : Fin 32} {h : HeldOrder} {tag : BitVec 16}

/-! ### SAMPLE (R43, R49, R118) -/

/-- Only an ARM has a gate to check (R44). -/
theorem OrderImage.gate_of_sample {o : OrderImage} (hkind : o.kind = 2) : o.gate = none := by
  rw [OrderImage.gate, hkind]; rfl

theorem exec_sample (hm : s.MayTake h) (hroom : s.HasRoom) (hd : h.detail = 0)
    (hkind : h.image.kind = 2) (hfree : s.LowestFree i) :
    exec .sample s = .next (s.takeForSlot h i) := by
  have hmay := s.maySlot_of_mayTake hm hroom hd hfree
  rw [hkind] at hmay
  rw [← s.takeSlotOrder_eq hm hfree]
  exact s.whenever_true _ hmay

section
variable {copy : OrderCopy} {delay : BitVec 24}

theorem State.giveSlot_sample_delays (hk : copy.kind = .sample delay) (hdelay : delay ≠ 0)
    (target : Option (Fin 32)) :
    s.giveSlot i copy target =
      s.setSlot i { Slot.holding copy .delaying with delayTimer := some 0 } := by
  simp only [State.giveSlot, hk, beq_eq_false_iff_ne.2 hdelay, Bool.false_eq_true, if_false]

theorem State.giveSlot_sample_fires (hk : copy.kind = .sample 0) (hn : s.NoEntry i)
    (target : Option (Fin 32)) :
    Fires (s.setSlot i (Slot.holding copy .delaying)) (s.giveSlot i copy target) i .start s.now
      s.now := by
  have hgive : s.giveSlot i copy target =
      (s.setSlot i (Slot.holding copy .delaying)).fire i .start s.now s.now := by
    simp [State.giveSlot, hk]
  rw [hgive]
  exact State.fire_fires _ i .start s.now s.now hn

end

/-- Settles O32, by the holder of the tag and then by the start delay. -/
theorem sampleIsAdmittedOrRefused : Obligations.SampleIsAdmittedOrRefused := by
  intro s h i delay copy hm hroom hd hkind hfree hcopy
  rw [exec_sample s hm hroom hd hkind hfree, ← hd]
  refine ⟨fun ht => ?busy, fun ht => ?admitted⟩
  case busy => rw [s.takeForSlot_of_tagHeld ht]; rfl
  case admitted =>
    rw [s.takeForSlot_of_gateCheck ht (s.gateCheck_of_no_gate (OrderImage.gate_of_sample hkind))]
    refine ⟨fun hdelay => ?_, fun hdelay hn => ⟨_, rfl, ?_⟩⟩
    · exact congrArg _ (s.afterTaking.giveSlot_sample_delays hcopy hdelay none)
    · rw [hdelay] at hcopy
      exact s.afterTaking.giveSlot_sample_fires hcopy hn none

/-! ### CANCEL (R59, R61, R119) -/

/-- The slot that a CANCEL ends holds the tag and is not CLOSING (R59). -/
theorem State.cancelTarget_of_holds (hd : TagsDistinct s) (hk : s.Holds k tag)
    (hopen : (s.slot k).state ≠ .closing) : s.cancelTarget tag = some k := by
  simp [State.cancelTarget, s.holderOf_some_of_holds hd hk, Option.filter, hopen]

theorem State.cancelTarget_of_closing (h : ∀ j, s.Holds j tag → (s.slot j).state = .closing) :
    s.cancelTarget tag = none := by
  unfold State.cancelTarget
  cases hholder : s.holderOf tag with
  | none => rfl
  | some j => simp [Option.filter, h j (s.holds_of_holderOf hholder)]

theorem exec_cancel (hm : s.MayTake h) (hroom : s.HasRoom) (hd : h.detail = 0)
    (hkind : h.image.kind = 3) : exec .cancel s = .next (s.takeCancel h) := by
  have htake : s.takeable (HeldOrder.isValid kindCancel) = some h :=
    s.takeable_eq_some hm hroom ((h.isValid_iff kindCancel).2 ⟨hd, hkind⟩)
  show execCancel s = _
  rw [execCancel, htake]

theorem State.takeCancel_of_target (ht : s.cancelTarget h.image.targetTag = some k)
    (hd : h.detail = 0) :
    s.takeCancel h =
      ((s.completeFiring k).answered h.image.tag .ok 0).closeSlot k .cancelled s.now := by
  rw [State.takeCancel, ht, ← hd, ← State.takeAndAnswer_answered]

theorem State.takeCancel_of_no_target (ht : s.cancelTarget h.image.targetTag = none)
    (hd : h.detail = 0) : s.takeCancel h = s.answered h.image.tag .noTarget 0 := by
  rw [State.takeCancel, ht, ← hd, ← State.takeAndAnswer_answered]

/-- Settles O33, by the target and whether a firing of it completes first. -/
theorem cancelEndsTargetOrFindsNone : Obligations.CancelEndsTargetOrFindsNone := by
  intro s h target hm hroom hd hkind
  rw [exec_cancel s hm hroom hd hkind]
  refine ⟨fun k htags hk hopen => ?ends, fun hnone => ?none⟩
  case none => rw [s.takeCancel_of_no_target (s.cancelTarget_of_closing hnone) hd]
  case ends =>
    rw [s.takeCancel_of_target (s.cancelTarget_of_holds htags hk hopen) hd]
    refine ⟨fun hc => ⟨_, rfl, ?_⟩, fun hc hn => ⟨s.completeFiring k, _, ?_, rfl, ?_⟩⟩
    · rw [(s.completeFiring_completes k fun c => absurd c hc).2 hc]
      exact State.closeSlot_ends _ k .cancelled s.now
    · exact (s.completeFiring_completes k fun _ => hn).1 hc
    · exact State.closeSlot_ends _ k .cancelled s.now

end Sys2Proof.Machine
end

/-! ## The records the card reads (O51) -/

section
namespace Sys2Proof.Machine

/-! ### Fields of a record (chapter 9) -/

section
variable {n : Nat} (record : BitVec n) (o k : Nat)

/-- A field of two bytes is little-endian (R160). -/
theorem recordField_two : recordField record o 16 = byteOf record (o + 1) ++ byteOf record o :=
  (BitVec.extractLsb'_append_extractLsb'_eq_extractLsb' (Nat.mul_succ 8 o)).symm

/-- A field of three bytes is little-endian (R160). -/
theorem recordField_three :
    recordField record o 24 = byteOf record (o + 2) ++ byteOf record (o + 1) ++ byteOf record o := by
  have hhigh : byteOf record (o + 2) ++ byteOf record (o + 1)
      = record.extractLsb' (8 * (o + 1)) 16 :=
    (recordField_two record (o + 1)).symm
  rw [hhigh]
  exact (BitVec.extractLsb'_append_extractLsb'_eq_extractLsb' (Nat.mul_succ 8 o)).symm

/-- A byte of a field is the byte of the record at its offset (R160). -/
theorem byteOf_recordField {w : Nat} (h : 8 * k + 8 ≤ w) :
    byteOf (recordField record o w) k = byteOf record (o + k) := by
  refine BitVec.eq_of_getLsbD_eq fun i hi => ?_
  have hw : 8 * k + i < w := by omega
  have hoff : 8 * o + (8 * k + i) = 8 * (o + k) + i := by ring
  simp only [byteOf, recordField, BitVec.getLsbD_extractLsb', hw, hoff, decide_true, Bool.true_and]

end

/-! ### Orders (Tables 9-3 to 9-5) -/

section
variable (o : OrderImage)

/-- The scan entries of an order stand at 0x20 + 2k, as many as it counts (Table 9-3). -/
theorem OrderImage.scanEntries_getElem? {k : Nat} {e : ScanEntry} (h : o.scanEntries[k]? = some e) :
    e = { channel := Fin.ofNat 12 (byteOf o (0x20 + 2 * k)).toNat,
          averaging := byteOf o (0x21 + 2 * k) } := by
  rw [OrderImage.scanEntries, List.getElem?_map, Option.map_eq_some_iff] at h
  obtain ⟨l, hl, he⟩ := h
  obtain ⟨hlt, hk⟩ := List.getElem?_eq_some_iff.1 hl
  have hlk : l = k := by rw [← hk]; exact List.getElem_range _
  rw [← he, hlk]
  rfl

theorem OrderImage.scanEntries_length : o.scanEntries.length = (byteOf o 0x16).toNat := by
  rw [OrderImage.scanEntries, List.length_map]
  exact List.length_range

/-- The copy of an ARM holds its pattern, its hold time and arm timeout and its gate (R41, R114). -/
theorem OrderImage.copy_kind_of_arm (number : BitVec 32) (h : byteOf o 0 = 1) :
    (o.copy number).kind =
      .arm { pattern := o.pattern, holdTime := o.holdTime, armTimeout := o.armTimeout,
             fireOnTimeout := o.fireOnTimeout,
             gateTag := if o.gated then some o.gateTag else none } := by
  have hkind : o.kind = kindArm := h
  rw [OrderImage.copy, hkind]
  rfl

/-- The copy of a SAMPLE holds its start delay (R41, R114). -/
theorem OrderImage.copy_kind_of_sample (number : BitVec 32) (h : byteOf o 0 = 2) :
    (o.copy number).kind = .sample o.startDelay := by
  have hkind : o.kind = kindSample := h
  rw [OrderImage.copy, hkind]
  rfl

theorem OrderImage.pattern_combine :
    o.pattern.combine = .all ↔ (byteOf o 0x0C).getLsbD 0 = true := by
  show (if o.mode.getLsbD 0 = true then _ else _) = _ ↔ o.mode.getLsbD 0 = true
  cases o.mode.getLsbD 0 <;> simp

theorem OrderImage.pattern_fireMode :
    o.pattern.fireMode = .entry ↔ (byteOf o 0x0C).getLsbD 1 = true := by
  show (if o.mode.getLsbD 1 = true then _ else _) = _ ↔ o.mode.getLsbD 1 = true
  cases o.mode.getLsbD 1 <;> simp

end

/-- Settles O51: each field is the one that the tables put at its offset. -/
theorem readRecordsAreDecodedByLayout : Obligations.ReadRecordsAreDecodedByLayout := by
  refine ⟨fun o number => ?order, fun data => ?setup⟩
  case order =>
    refine ⟨recordField_two o 2, rfl, fun h => Nat.mod_eq_of_lt (Nat.lt_succ_of_le h), rfl, rfl,
      recordField_two o 0x14, recordField_three o 0x18, o.scanEntries_length, fun k e he => ?entries,
      fun h => ⟨_, o.copy_kind_of_arm number h, recordField_two o 8, recordField_two o 0x0A,
        o.pattern_combine, o.pattern_fireMode, recordField_two o 0x0E, recordField_two o 0x10, rfl,
        fun hg => ?gated, fun hg => ?ungated⟩,
      fun h => ?delay, recordField_two o 8, recordField_two o 8, rfl, recordField_two o 8⟩
    case entries =>
      rw [o.scanEntries_getElem? he]
      exact ⟨rfl, fun h => Nat.mod_eq_of_lt (Nat.lt_succ_of_le h)⟩
    case gated => exact (if_pos hg).trans (congrArg some (recordField_two o 0x12))
    case ungated => exact if_neg (Bool.eq_false_iff.1 hg)
    case delay =>
      rw [o.copy_kind_of_sample number h]
      exact congrArg _ (recordField_three o 0x1C)
  case setup =>
    refine ⟨fun k hk => ⟨?_, ?_, ?_⟩, recordField_two data 0x18, recordField_two data 0x1A,
      recordField_two data 0x1C, rfl, fun k hk => ?_, recordField_two data 0x24,
      recordField_two data 0x26, fun c => ?channel, fun l => ?debounce⟩
    · exact (byteOf_recordField data 0 k (by omega)).trans (by rw [Nat.zero_add])
    · exact byteOf_recordField data 0x08 k (by omega)
    · exact byteOf_recordField data 0x10 k (by omega)
    · exact byteOf_recordField data 0x20 k (by omega)
    case channel =>
      have hc : (SetupCopy.ofRecord data).channels[c] = setupChannel data c :=
        Vector.getElem_ofFn c.isLt
      rw [hc]
      exact ⟨rfl, rfl⟩
    case debounce => exact Vector.getElem_ofFn l.isLt

end Sys2Proof.Machine
end

/-! ## The halt (O38) -/

section
namespace Sys2Proof.Machine

variable {s t v w : State} {i j : Fin 32} {lossFirst : BitVec 32}

/-! ### Firings that complete first (R61) -/

/-- A slot that hears of its gate changes in the events it holds alone (R45). -/
theorem Slot.hear_eq (x : Slot) (i : Fin 32) (e : GateEvent) :
    ∃ events, x.hear i e = { x with gateEvents := events } := by
  unfold Slot.hear
  split
  · exact ⟨_, rfl⟩
  · exact ⟨x.gateEvents, rfl⟩

/-- The entry of slot `i` to the watch changes another slot in its gate events alone, and makes no
scan of it due (R18). -/
theorem EntersWatch.other {a : ArmOrder} {time : Timestamp} (h : EntersWatch s t i a time)
    (hj : j ≠ i) :
    (∃ events, t.slot j = { s.slot j with gateEvents := events }) ∧ (s.NoEntry j → t.NoEntry j) := by
  have hset : ∀ {y : Slot}, t = s.setSlot i y →
      (∃ events, t.slot j = { s.slot j with gateEvents := events })
        ∧ (s.NoEntry j → t.NoEntry j) := fun e => by
    rw [e, s.slot_setSlot_ne _ _ _ hj]
    exact ⟨⟨_, rfl⟩, id⟩
  unfold EntersWatch at h
  dsimp only at h
  split at h
  · split at h
    · exact hset h
    · split at h
      · obtain ⟨-, hothers, ht⟩ := h
        refine ⟨?_, fun hn => ?_⟩
        · rw [hothers.slot hj]; exact Slot.hear_eq _ _ _
        · have hsched : t.sched = { s.sched with due := insertDue (s.entryNow i) s.sched.due } := by
            rw [ht]
          rw [State.noEntry_iff_share, hsched, s.sched.share_insert_ne (s.entryNow i) hj]
          exact State.noEntry_iff_share.1 hn
      · exact hset h
  · exact hset h

theorem State.AwaitsCompletion.of_gateEvents (h : t.AwaitsCompletion j)
    (hrun : t.run.runState = s.run.runState)
    (hslot : ∃ events, t.slot j = { s.slot j with gateEvents := events }) :
    s.AwaitsCompletion j := by
  obtain ⟨events, hslot⟩ := hslot
  unfold State.AwaitsCompletion at h ⊢
  rw [hslot, hrun] at h
  exact h

/-- A firing of another slot that completes leaves slot `j` to complete as before (R61). -/
theorem State.completeFiring_other (hi : s.AwaitsCompletion i → s.NoEntry i) (hj : j ≠ i)
    (h : s.AwaitsCompletion j → s.NoEntry j) :
    (s.completeFiring i).AwaitsCompletion j → (s.completeFiring i).NoEntry j := by
  obtain ⟨hcompletes, hstays⟩ := s.completeFiring_completes i hi
  have hrun : (s.completeFiring i).run.runState = s.run.runState :=
    State.runState_of_control (State.control_of_frame (s.frame_completeFiring i))
  by_cases ha : s.AwaitsCompletion i
  · obtain ⟨a, -, hwatch⟩ := hcompletes ha
    obtain ⟨hslot, hentry⟩ := hwatch.other hj
    rw [State.slot_setSlot_ne _ _ _ _ hj] at hslot
    exact fun hc => hentry (h (hc.of_gateEvents hrun hslot))
  · rw [hstays ha]; exact h

/-- The firings of the listed slots complete one after the other (R61, log entry 18). -/
theorem State.completeFirings_foldl (l : List (Fin 32)) (hl : l.Nodup)
    (h : ∀ j ∈ l, s.AwaitsCompletion j → s.NoEntry j) :
    CompleteFirings l s (l.foldl State.completeFiring s) := by
  induction l generalizing s with
  | nil => rfl
  | cons i rest ih =>
    obtain ⟨hi, hrest⟩ := List.nodup_cons.1 hl
    have hhere := h i List.mem_cons_self
    obtain ⟨hcompletes, hstays⟩ := s.completeFiring_completes i hhere
    refine ⟨s.completeFiring i, hcompletes, hstays, ih hrest fun j hj => ?_⟩
    exact State.completeFiring_other hhere (fun e => hi (e ▸ hj)) (h j (List.mem_cons_of_mem _ hj))

theorem State.frame_completeFirings (l : List (Fin 32)) (s : State) :
    (l.foldl State.completeFiring s).frame = s.frame := by
  induction l generalizing s with
  | nil => rfl
  | cons i rest ih => rw [List.foldl_cons, ih, s.frame_completeFiring]

/-! ### Why a slot ends at the halt (R48, R60) -/

/-- The slot is taken by the halt: it is in GATED, WATCHING, DELAYING or RUNNING (R60). -/
def Slot.Halts (x : Slot) : Prop := x.state ≠ .free ∧ x.state ≠ .closing

theorem Slot.not_halts_iff {x : Slot} : ¬ x.Halts ↔ x.state = .free ∨ x.state = .closing := by
  unfold Slot.Halts; rw [not_and_or, not_not, not_not]

/-- The event is an opening of the gate. -/
def GateEvent.isOpening : GateEvent → Bool
  | .opening _ => true
  | .loss _ => false

theorem GateEvent.isOpening_iff (e : GateEvent) :
    e.isOpening = true ↔ ∃ time, e = .opening time := by
  cases e <;> simp [GateEvent.isOpening]

theorem Slot.haltReason_eq (x : Slot) (b : Bool) :
    x.haltReason b = if b && x.state == .gated && !(x.gateEvents.any GateEvent.isOpening)
      then .gateLost else .halted := rfl

/-- The model's test for the loss of the gate at the halt (R48). -/
theorem Slot.losesGate_iff (x : Slot) (b : Bool) :
    (b && x.state == .gated && !(x.gateEvents.any GateEvent.isOpening)) = true ↔
      b = true ∧ x.state = .gated ∧ ∀ time, GateEvent.opening time ∉ x.gateEvents := by
  have hopen : (x.gateEvents.any GateEvent.isOpening) = true ↔
      ∃ time, GateEvent.opening time ∈ x.gateEvents := by
    simp only [List.any_eq_true, GateEvent.isOpening_iff]
    exact ⟨fun ⟨_, he, time, ht⟩ => ⟨time, ht ▸ he⟩, fun ⟨time, h⟩ => ⟨_, h, time, rfl⟩⟩
  rw [Bool.and_eq_true, Bool.and_eq_true, beq_iff_eq, Bool.not_eq_true', ← Bool.not_eq_true, hopen,
    not_exists, and_assoc]

/-- A loss that a slot hears of does not change whether it has an opening to take first (R48). -/
theorem Slot.haltReason_hear_loss (x : Slot) (i : Fin 32) (time : Timestamp) (b : Bool) :
    (x.hear i (.loss time)).haltReason b = x.haltReason b := by
  unfold Slot.hear
  split
  · rw [Slot.haltReason_eq, Slot.haltReason_eq, List.any_append]
    simp [GateEvent.isOpening]
  · rfl

/-! ### The halt of one slot (R60) -/

theorem State.haltSlot_of_halts (h : (s.slot i).Halts) :
    Ends s (s.haltSlot lossFirst i) i ((s.slot i).haltReason (lossFirst.getLsbD i)) s.now := by
  obtain ⟨hfree, hclosing⟩ := h
  have hc : ((s.slot i).occupied && (s.slot i).state != .closing) = true := by
    rw [Bool.and_eq_true, Slot.occupied_iff, bne_iff_ne]; exact ⟨hfree, hclosing⟩
  unfold State.haltSlot
  dsimp only
  rw [if_pos hc]
  exact s.closeSlot_ends i _ _

theorem State.haltSlot_of_not_halts (h : ¬ (s.slot i).Halts) : s.haltSlot lossFirst i = s := by
  refine if_neg fun hc => h ?_
  rwa [Bool.and_eq_true, Slot.occupied_iff, bne_iff_ne] at hc

/-- A slot ends with the same record after another slot's end as before (R56). -/
theorem Ends.endedRecord_other {reason : EndReason} {time : Timestamp} (h : Ends s t i reason time)
    (hj : j ≠ i) (other : EndReason) (now : Timestamp) :
    t.endedRecord j other now = s.endedRecord j other now := by
  obtain ⟨events, hevents⟩ := (s.slot j).hear_eq i (.loss time)
  have hslot : t.slot j = { s.slot j with gateEvents := events } :=
    (h.slot_other hj).trans hevents
  obtain ⟨-, -, ht⟩ := h
  have hdue : t.sched.due = s.sched.due.filter fun d => d.slot != i := by rw [ht]
  have hany : (t.sched.due.any fun d => d.slot == j) = s.sched.due.any fun d => d.slot == j := by
    rw [hdue, List.any_filter]
    congr 1
    funext d
    by_cases hd : d.slot = j <;> simp [hd, hj]
  unfold State.endedRecord
  rw [hany, hslot]
  rfl

/-! ### The halt of every slot (R56, R60, R149) -/

/-- The listed slots of `v` have taken the halt in `t`, and nothing else has changed but their
waiting entries and the losses their followers hear of. -/
structure Halted (lossFirst : BitVec 32) (l : List (Fin 32)) (v t : State) : Prop where
  kept : ∀ j, ¬ (v.slot j).Halts → t.slot j = v.slot j
  ended : ∀ j ∈ l, (v.slot j).Halts →
    (v.endedRecord j ((v.slot j).haltReason (lossFirst.getLsbD j)) v.now).AskedFrom v.moment
      (t.slot j)
  frame : t = { v with
    slots := t.slots
    sched.due := v.sched.due.filter fun d =>
      d.slot ∉ l ∨ (v.slot d.slot).state = .free ∨ (v.slot d.slot).state = .closing }

theorem Ends.state_other {reason : EndReason} {time : Timestamp} (h : Ends s t i reason time)
    (hj : j ≠ i) : (t.slot j).state = (s.slot j).state := by
  obtain ⟨events, hevents⟩ := (s.slot j).hear_eq i (.loss time)
  rw [h.slot_other hj, hevents]

theorem Ends.slot_of_not_halts {reason : EndReason} {time : Timestamp} (h : Ends s t i reason time)
    (hj : j ≠ i) (hn : ¬ (s.slot j).Halts) : t.slot j = s.slot j := by
  rw [h.slot_other hj]
  refine Slot.hear_of_not_linksTo i _ fun ⟨hgated, _⟩ => hn ⟨?_, ?_⟩ <;> rw [hgated] <;> nofun

/-- One slot more takes the halt before the others. -/
theorem Halted.cons {l : List (Fin 32)} (hi : (v.slot i).Halts)
    (he : Ends v w i ((v.slot i).haltReason (lossFirst.getLsbD i)) v.now)
    (h : Halted lossFirst l w t) : Halted lossFirst (i :: l) v t := by
  have hne : ∀ {j}, ¬ (v.slot j).Halts → j ≠ i := fun hn e => hn (e ▸ hi)
  have hclosed : ¬ (w.slot i).Halts := fun hc => hc.2 he.state
  obtain ⟨-, -, hframe⟩ := id he
  have hnow : w.now = v.now := by rw [hframe]; rfl
  have hmoment : w.moment = v.moment := by rw [hframe]; rfl
  refine ⟨fun j hn => ?kept, fun j hj hhalts => ?ended, ?frame⟩
  case kept =>
    have hslot := he.slot_of_not_halts (hne hn) hn
    rw [h.kept j (by rwa [hslot]), hslot]
  case ended =>
    by_cases e : j = i
    · rw [e, h.kept i hclosed]
      exact he.1
    · have hended := h.ended j (List.mem_of_ne_of_mem e hj) (by
        unfold Slot.Halts; rw [he.state_other e]; exact hhalts)
      rwa [he.endedRecord_other e, he.slot_other e, Slot.haltReason_hear_loss, hnow,
        hmoment] at hended
  case frame =>
    have hdue : (w.sched.due.filter fun d =>
          d.slot ∉ l ∨ (w.slot d.slot).state = .free ∨ (w.slot d.slot).state = .closing)
        = v.sched.due.filter fun d =>
          d.slot ∉ i :: l ∨ (v.slot d.slot).state = .free ∨ (v.slot d.slot).state = .closing := by
      rw [show w.sched.due = v.sched.due.filter fun d => d.slot != i by rw [hframe],
        List.filter_filter]
      refine List.filter_congr fun d _ => ?_
      by_cases e : d.slot = i
      · obtain ⟨hfree, hclosing⟩ := hi
        simp [e, hfree, hclosing]
      · simp [e, he.state_other e]
    rw [h.frame, ← hdue]
    rw [hframe]

theorem Halted.skip {l : List (Fin 32)} (hi : ¬ (v.slot i).Halts) (h : Halted lossFirst l v t) :
    Halted lossFirst (i :: l) v t := by
  have hdue : (v.sched.due.filter fun d =>
        d.slot ∉ l ∨ (v.slot d.slot).state = .free ∨ (v.slot d.slot).state = .closing)
      = v.sched.due.filter fun d =>
        d.slot ∉ i :: l ∨ (v.slot d.slot).state = .free ∨ (v.slot d.slot).state = .closing := by
    refine List.filter_congr fun d _ => ?_
    by_cases e : d.slot = i
    · simp [e, Slot.not_halts_iff.1 hi]
    · simp [e]
  refine ⟨h.kept, fun j hj hhalts => ?_, ?_⟩
  · exact h.ended j (List.mem_of_ne_of_mem (fun e : j = i => hi (e ▸ hhalts)) hj) hhalts
  · rw [← hdue]; exact h.frame

theorem State.halted_foldl (l : List (Fin 32)) (v : State) :
    Halted lossFirst l v (l.foldl (State.haltSlot lossFirst) v) := by
  induction l generalizing v with
  | nil =>
    refine ⟨fun _ _ => rfl, nofun, ?_⟩
    simp
  | cons i rest ih =>
    rw [List.foldl_cons]
    by_cases hi : (v.slot i).Halts
    · exact (ih _).cons hi (State.haltSlot_of_halts hi)
    · rw [State.haltSlot_of_not_halts hi]
      exact (ih v).skip hi

/-! ### The stop (R124, R149) -/

/-- RUNNING is left: fetching is off, the held order discarded, the fence settled (R124, R149). -/
def State.stopBegun (s : State) : State :=
  { s with
    run.runState := .stopping
    window.run := false
    fetch.state := .off
    fetch.held := none
    fetch.fence := s.fetch.fence.map fun f => f.takes .halted s.now }

theorem State.beginStop_eq (s : State) (lossFirst : BitVec 32) :
    s.beginStop lossFirst = slotNumbers.foldl (State.haltSlot lossFirst)
      (slotNumbers.foldl State.completeFiring s).stopBegun := by
  have hsettle : ∀ u : State,
      ({ u with run.runState := .stopping, window.run := false, fetch.state := .off,
                fetch.held := none } : State).settleFence .halted = u.stopBegun := fun u => by
    unfold State.settleFence State.stopBegun
    simp only [Fence.settle_takes]
    rfl
  unfold State.beginStop
  rw [← hsettle]

theorem exec_runWritten0_of_running (h : s.run.runState = .running) :
    exec (.runWritten0 lossFirst) s = .next (s.beginStop lossFirst) := by
  show Host.Outcome.next (s.writeRun0 lossFirst) = _
  rw [State.writeRun0, h]

/-- Settles O38: the firings complete one after the other, and then each slot takes the halt. -/
theorem runWrittenZeroHaltsEverySlot : Obligations.RunWrittenZeroHaltsEverySlot := by
  intro s lossFirst hrun hentry
  have hcompletes := State.completeFirings_foldl (s := s) slotNumbers (List.nodup_finRange 32)
    fun j _ => hentry j
  have hnone : (∀ j, ¬ s.AwaitsCompletion j) → slotNumbers.foldl State.completeFiring s = s :=
    fun hn => List.foldl_fixed' (fun j => (s.completeFiring_completes j (hentry j)).2 (hn j)) _
  have hframe := State.frame_completeFirings slotNumbers s
  have hexec := exec_runWritten0_of_running (lossFirst := lossFirst) hrun
  rw [s.beginStop_eq] at hexec
  generalize slotNumbers.foldl State.completeFiring s = m at hcompletes hnone hframe hexec
  have hhalted := State.halted_foldl (lossFirst := lossFirst) slotNumbers m.stopBegun
  generalize slotNumbers.foldl (State.haltSlot lossFirst) m.stopBegun = t at hexec hhalted
  have hnow : m.now = s.now := (congrArg State.now hframe : m.frame.now = s.frame.now)
  have hmoment : m.moment = s.moment := (congrArg State.moment hframe : m.frame.moment = _)
  have hfence : m.fetch.fence = s.fetch.fence :=
    (congrArg (fun u => u.fetch.fence) hframe : m.frame.fetch.fence = _)
  have hended : ∀ j, (m.slot j).Halts →
      (m.endedRecord j ((m.slot j).haltReason (lossFirst.getLsbD j)) s.now).AskedFrom s.moment
        (t.slot j) := fun j hj => by
    rw [← hnow, ← hmoment]
    exact hhalted.ended j (mem_slotNumbers j) hj
  refine ⟨m, t, hcompletes, hexec, hnone, fun j hj => ?kept, fun j hfree hclosing => ⟨fun h => ?lost,
    fun h => ?halted⟩, ?frame⟩
  case kept => exact hhalted.kept j (Slot.not_halts_iff.2 hj)
  case lost =>
    have hreason := (m.slot j).haltReason_eq (lossFirst.getLsbD j)
    rw [if_pos (((m.slot j).losesGate_iff _).2 h)] at hreason
    exact hreason ▸ hended j ⟨hfree, hclosing⟩
  case halted =>
    have hreason := (m.slot j).haltReason_eq (lossFirst.getLsbD j)
    rw [if_neg (mt ((m.slot j).losesGate_iff _).1 h)] at hreason
    exact hreason ▸ hended j ⟨hfree, hclosing⟩
  case frame =>
    have hdue : (m.sched.due.filter fun d =>
          d.slot ∉ slotNumbers ∨ (m.slot d.slot).state = .free ∨ (m.slot d.slot).state = .closing)
        = m.sched.due.filter fun d =>
          (m.slot d.slot).state = .free ∨ (m.slot d.slot).state = .closing :=
      List.filter_congr fun d _ => by simp [mem_slotNumbers]
    rw [← hdue, ← hfence, ← hnow]
    exact hhalted.frame

end Sys2Proof.Machine
end

/-! ## Grant order (O15) -/

section
namespace Sys2Proof.Machine

/-! ### The order of two entries (R70) -/

/-- Class, due time and slot number, of which the first that differs decides (R70). -/
def DueEntry.rank (d : DueEntry) : Fin 4 ×ₗ Moment ×ₗ Fin 32 :=
  toLex (d.priority, toLex (d.due, d.slot))

theorem comesBefore_iff_rank (a b : DueEntry) : ComesBefore a b ↔ a.rank < b.rank := by
  simp only [DueEntry.rank, Prod.Lex.toLex_lt_toLex]; rfl

theorem DueEntry.before_iff (a b : DueEntry) : a.before b = true ↔ ComesBefore a b := by
  simp [DueEntry.before, ComesBefore]

theorem DueEntry.slot_of_rank {a b : DueEntry} (h : a.rank = b.rank) : a.slot = b.slot :=
  congrArg (fun k => (ofLex (ofLex k).2).2) h

theorem ComesBefore.trans {a b c : DueEntry} (h : ComesBefore a b) (h' : ComesBefore b c) :
    ComesBefore a c := by
  rw [comesBefore_iff_rank] at *; exact h.trans h'

theorem ComesBefore.asymm {a b : DueEntry} (h : ComesBefore a b) : ¬ ComesBefore b a := by
  rw [comesBefore_iff_rank] at *; exact h.asymm

/-- Entries of two slots never tie: the slot number decides last (R70). -/
theorem comesBefore_of_not {a b : DueEntry} (hne : b.slot ≠ a.slot) (h : ¬ ComesBefore a b) :
    ComesBefore b a := by
  rw [comesBefore_iff_rank] at *
  exact lt_of_le_of_ne (not_lt.1 h) fun e => hne (DueEntry.slot_of_rank e)

/-! ### Insertion (R71) -/

theorem insertDue_eq_orderedInsert (e : DueEntry) (l : List DueEntry) :
    insertDue e l = l.orderedInsert (fun a b => a.before b) e := by
  induction l with
  | nil => rfl
  | cons d ds ih => simp only [insertDue, List.orderedInsert_cons, ih]

theorem insertDue_perm (e : DueEntry) (l : List DueEntry) : (insertDue e l).Perm (e :: l) := by
  rw [insertDue_eq_orderedInsert]; exact List.perm_orderedInsert _ e l

/-- An entry of a slot that has none waiting finds its place between those before it and those
after it. -/
theorem insertDue_pairwise {e : DueEntry} {l : List DueEntry} (h : l.Pairwise ComesBefore)
    (hnew : ∀ d ∈ l, d.slot ≠ e.slot) : (insertDue e l).Pairwise ComesBefore := by
  induction l with
  | nil => exact List.pairwise_singleton _ e
  | cons d ds ih =>
    obtain ⟨hd, hds⟩ := List.pairwise_cons.1 h
    unfold insertDue
    split
    next hbefore =>
      have hed : ComesBefore e d := (e.before_iff d).1 hbefore
      exact h.cons (List.forall_mem_cons.2 ⟨hed, fun b hb => hed.trans (hd b hb)⟩)
    next hbefore =>
      have hde : ComesBefore d e :=
        comesBefore_of_not (hnew d List.mem_cons_self) (mt (e.before_iff d).2 hbefore)
      refine (ih hds fun b hb => hnew b (List.mem_cons_of_mem d hb)).cons fun b hb => ?_
      rcases List.mem_cons.1 ((insertDue_perm e ds).mem_iff.1 hb) with rfl | hb
      · exact hde
      · exact hd b hb

variable {l l' : List DueEntry}

theorem GrantOrdered.insertDue {e : DueEntry} (h : GrantOrdered l)
    (hnew : ∀ d ∈ l, d.slot ≠ e.slot) : GrantOrdered (insertDue e l) := by
  obtain ⟨hordered, hnodup⟩ := h
  refine ⟨insertDue_pairwise hordered hnew, ((insertDue_perm e l).map _).nodup_iff.2 ?_⟩
  refine List.nodup_cons.2 ⟨fun hm => ?_, hnodup⟩
  obtain ⟨d, hd, hslot⟩ := List.mem_map.1 hm
  exact hnew d hd hslot

/-- Entries that leave the queue leave the others in grant order (R71). -/
theorem GrantOrdered.sublist (h : GrantOrdered l) (hl : l'.Sublist l) : GrantOrdered l' :=
  ⟨h.1.sublist hl, h.2.sublist (hl.map _)⟩

/-- Settles O15: an insertion keeps the order, and of two orders of the same entries each would have
some entry both before and after another. -/
theorem dueQueueKeepsGrantOrder : Obligations.DueQueueKeepsGrantOrder :=
  ⟨fun e l h hnew => ⟨insertDue_perm e l, h.insertDue hnew⟩,
    fun _ _ ⟨h, _⟩ ⟨h', _⟩ hperm =>
      hperm.eq_of_pairwise (fun _ _ _ _ hab hba => absurd hba hab.asymm) h h'⟩

end Sys2Proof.Machine
end

/-! ## What a step does to the stores -/

section
namespace Sys2Proof.Machine

/-! ### Moves of the stores -/

/-- The stores of a bounded capacity and the Due Queue: the Post Queue (R131), the converter and the
Staging Buffer (R72, R83), the Buffer Cache and the descriptor read in flight (R91). -/
def State.stores (s : State) :
    List CompletionRecord × Scheduler × List Descriptor × Option BusRead :=
  (s.post.queue, s.sched, s.pages.cache, s.pages.poolRead)

/-- Nothing has been put into a store of `s`: each holds at most as much in `t`, with the places kept
for the scan in conversion and for the read in flight, and the Due Queue has lost entries alone. -/
structure NoFuller (s t : State) : Prop where
  queue : t.post.queue.length ≤ s.post.queue.length
  scans : t.sched.staging.length + t.sched.conversion.toList.length
    ≤ s.sched.staging.length + s.sched.conversion.toList.length
  descriptors : t.pages.cache.length + t.pages.poolRead.toList.length
    ≤ s.pages.cache.length + s.pages.poolRead.toList.length
  due : t.sched.due.Sublist s.sched.due

/-- What a command may do at once to the stores. A command is a sequence of such moves. -/
inductive StoreMove (s : State) : State → Prop
  /-- Nothing is put into a store. -/
  | empties (t : State) (noFuller : NoFuller s t) : StoreMove s t
  /-- A record joins the Post Queue, which has room (R131). -/
  | posts (r : CompletionRecord) (room : s.HasRoom) : StoreMove s (s.postRecord r)
  /-- A scan of a slot that has no entry waiting becomes due (R67, R71). -/
  | inserts (t : State) (e : DueEntry) (new : s.NoEntry e.slot) (frame : t.frame = s.frame)
      (due : t.sched.due = insertDue e s.sched.due) : StoreMove s t
  /-- The head of the Due Queue is granted while the Staging Buffer has a place (R72). -/
  | grants (idle : s.sched.conversion = none) (room : s.sched.staging.length < 4) :
      StoreMove s s.grantHead
  /-- A descriptor is read while the Buffer Cache has a place (R89). -/
  | readsPool (r : BusRead) (idle : s.pages.poolRead = none) (room : s.pages.cache.length < 8) :
      StoreMove s { s with pages.poolRead := some r }

/-- A sequence of moves of the stores. -/
abbrev StoreMoves : State → State → Prop := Relation.ReflTransGen StoreMove

/-- If the result is a next state, moves of the stores lead to it. -/
def StoreMoving (s : State) (r : Result) : Prop := ∀ t, r = .next t → StoreMoves s t

section
variable {s t : State}

theorem NoFuller.of_stores (h : t.stores = s.stores) : NoFuller s t := by
  simp only [State.stores, Prod.mk.injEq] at h
  obtain ⟨hqueue, hsched, hcache, hread⟩ := h
  exact ⟨by rw [hqueue], by rw [hsched], by rw [hcache, hread], by rw [hsched]⟩

/-- What a slot's work may change is no store, but for the Due Queue. -/
theorem NoFuller.of_frame (h : t.frame = s.frame) (hdue : t.sched.due.Sublist s.sched.due) :
    NoFuller s t := by
  obtain ⟨hqueue, hscans, hdescriptors, -⟩ := NoFuller.of_stores (congrArg State.stores h)
  exact ⟨hqueue, hscans, hdescriptors, hdue⟩

theorem StoreMoves.empties (h : NoFuller s t) : StoreMoves s t := .single (.empties t h)

theorem StoreMoves.keeps (h : t.stores = s.stores) : StoreMoves s t := .empties (.of_stores h)

/-- A state of empty stores is reached from any other. -/
theorem StoreMoves.clears (h : t.stores = State.reset.stores) : StoreMoves s t := by
  obtain ⟨hqueue, hscans, hdescriptors, hdue⟩ := NoFuller.of_stores h
  exact .empties ⟨hqueue.trans (Nat.zero_le _), hscans.trans (Nat.zero_le _),
    hdescriptors.trans (Nat.zero_le _), hdue.trans (List.nil_sublist _)⟩

/-- A record enters the Post Queue, and the rest of the step keeps the stores. -/
theorem StoreMoves.posts {u : State} (r : CompletionRecord) (hroom : s.HasRoom)
    (h : u.stores = (s.postRecord r).stores) : StoreMoves s u :=
  .tail (.single (.posts r hroom)) (.empties u (.of_stores h))

theorem StoreMoves.after_empties {u : State} (h : StoreMoves t u) (ht : NoFuller s t) :
    StoreMoves s u :=
  .head (.empties t ht) h

theorem StoreMoves.after_keeps {u : State} (h : StoreMoves t u) (ht : t.stores = s.stores) :
    StoreMoves s u :=
  h.after_empties (.of_stores ht)

theorem StoreMoving.next (h : StoreMoves s t) : StoreMoving s (.next t) := by rintro _ ⟨⟩; exact h

theorem StoreMoving.same : StoreMoving s (.next s) := .next .refl

theorem StoreMoving.keeps (h : t.stores = s.stores) : StoreMoving s (.next t) := .next (.keeps h)

theorem StoreMoving.whenever {ready : Bool} (h : ready = true → StoreMoves s t) :
    StoreMoving s (s.whenever ready t) := by
  refine .next ?_
  split
  next hr => exact h hr
  · exact .refl

theorem StoreMoving.whenever_keeps {ready : Bool} (h : t.stores = s.stores) :
    StoreMoving s (s.whenever ready t) :=
  .whenever fun _ => .keeps h

end

/-! ### What leaves the stores alone -/

section
variable (s : State) (i : Fin 32)

theorem State.stores_withEvents (e : EventLogic) : (s.withEvents e).stores = s.stores := by
  rw [State.withEvents_eventsBecome]; rfl

theorem State.stores_setFlag (f : EventFlag) : (s.setFlag f).stores = s.stores :=
  s.stores_withEvents _

theorem State.stores_refuseWrite : s.refuseWrite.stores = s.stores := s.stores_setFlag _

theorem State.stores_signalDone : s.signalDone.stores = s.stores := State.stores_setFlag _ _

theorem State.stores_moderate : s.moderate.stores = s.stores := by
  unfold State.moderate
  dsimp only
  split
  · exact s.stores_signalDone
  · rfl

theorem State.stores_flushModeration : s.flushModeration.stores = s.stores := by
  unfold State.flushModeration
  split
  · rfl
  · exact s.stores_signalDone

theorem State.stores_noteRequest : (s.noteRequest i).stores = s.stores := by
  obtain ⟨y, -, h⟩ := s.noteRequest_asked i
  rw [h]; rfl

theorem State.stores_fenceIfEmpty : s.fenceIfEmpty.stores = s.stores := by
  unfold State.fenceIfEmpty; split <;> rfl

theorem State.stores_commitLines (v : Vector Line 16) (sameMoment : Bool) :
    (s.commitLines v sameMoment).stores = s.stores := by
  obtain ⟨-, h, -⟩ := s.commitLines_linesBecome v sameMoment
  rw [h]; rfl

theorem State.stores_retimeLines (mask : LineWord) (times : Fin 16 → Byte) :
    (s.retimeLines mask times).stores = s.stores :=
  s.stores_commitLines _ _

theorem State.stores_resumeLines : s.resumeLines.stores = s.stores := State.stores_commitLines _ _ _

theorem State.stores_endStart (result : SetupResult) : (s.endStart result).stores = s.stores := by
  rw [State.endStart_startEnded]; rfl

theorem State.stores_beginStart : s.beginStart.stores = s.stores := by
  unfold State.beginStart
  dsimp only
  split
  · exact State.stores_endStart _ _
  · rfl

theorem State.stores_stopBegun : s.stopBegun.stores = s.stores := rfl

theorem State.stores_writeOrderTail (value : BitVec 32) :
    (s.writeOrderTail value).stores = s.stores := by
  unfold State.writeOrderTail State.setOrderTail
  dsimp only
  split
  · exact s.stores_refuseWrite
  · rfl
  · split
    · split <;> rfl
    · rfl

theorem State.stores_writePoolTail (value : BitVec 32) :
    (s.writePoolTail value).stores = s.stores := by
  unfold State.writePoolTail
  split
  · exact s.stores_refuseWrite
  all_goals rfl

theorem State.stores_writeDoneHead (value : BitVec 32) :
    (s.writeDoneHead value).stores = s.stores := by
  unfold State.writeDoneHead
  split
  · exact s.stores_refuseWrite
  · rfl
  · split
    · rfl
    · exact s.stores_refuseWrite

end

/-! ### Slots and their scans -/

section
variable {s : State} {i : Fin 32}

theorem closeSlot_storeMoves (reason : EndReason) (time : Timestamp) :
    StoreMoves s (s.closeSlot i reason time) := by
  refine .empties (.of_frame (s.frame_closeSlot i reason time) ?_)
  obtain ⟨-, -, h⟩ := s.closeSlot_ends i reason time
  rw [h]
  exact List.filter_sublist

theorem endFiring_storeMoves : StoreMoves s (s.endFiring i) := by
  unfold State.endFiring
  dsimp only
  split
  · split
    · exact closeSlot_storeMoves _ _
    · exact .keeps (State.stores_noteRequest _ i)
  · exact .refl

/-- A scan that becomes due is inserted if no entry of its slot waits, and never beside one (R67). -/
theorem scanDue_storeMoves : StoreMoves s (s.scanDue i) := by
  by_cases hn : s.NoEntry i
  · refine .single (.inserts _ (s.entryNow i) hn (s.frame_scanDue i) ?_)
    rw [s.scanDue_becomesDue i hn]
  · rw [s.scanDue_missed i hn]
    exact .after_keeps endFiring_storeMoves rfl

theorem fire_storeMoves (cause : Cause) (onset time : Timestamp) :
    StoreMoves s (s.fire i cause onset time) := by
  unfold State.fire
  exact .after_keeps scanDue_storeMoves rfl

theorem conditionTrue_storeMoves (a : ArmOrder) (time : Timestamp) :
    StoreMoves s (s.conditionTrue i a time) := by
  unfold State.conditionTrue
  split
  · exact fire_storeMoves _ _ _
  · exact .keeps rfl

theorem enterWatch_storeMoves (time : Timestamp) : StoreMoves s (s.enterWatch i time) := by
  unfold State.enterWatch
  dsimp only
  split
  · exact .keeps rfl
  · split
    · split
      · exact .keeps rfl
      · exact .after_keeps (conditionTrue_storeMoves _ _) rfl
    · exact .keeps rfl

theorem returnToWatch_storeMoves : StoreMoves s (s.returnToWatch i) := by
  unfold State.returnToWatch
  exact .after_keeps (enterWatch_storeMoves _) rfl

theorem completeFiring_storeMoves : StoreMoves s (s.completeFiring i) := by
  unfold State.completeFiring
  split
  · exact returnToWatch_storeMoves
  · exact .refl

theorem afterResolved_storeMoves : StoreMoves s (s.afterResolved i) := by
  have hended : StoreMoves s (s.endFiring i) := endFiring_storeMoves
  unfold State.afterResolved
  dsimp only
  split
  · exact (hended.trans scanDue_storeMoves).trans (StoreMoves.keeps (State.stores_noteRequest _ i))
  · exact hended.trans (StoreMoves.keeps (State.stores_noteRequest _ i))

theorem giveSlot_storeMoves (order : OrderCopy) (target : Option (Fin 32)) :
    StoreMoves s (s.giveSlot i order target) := by
  unfold State.giveSlot
  split
  · split
    · exact .after_keeps (fire_storeMoves _ _ _) rfl
    · exact .keeps rfl
  · split
    · exact .keeps rfl
    · exact .after_keeps (enterWatch_storeMoves _) rfl

theorem haltSlot_storeMoves (lossFirst : BitVec 32) : StoreMoves s (s.haltSlot lossFirst i) := by
  unfold State.haltSlot
  dsimp only
  split
  · exact closeSlot_storeMoves _ _
  · exact .refl

theorem foldl_storeMoves {f : State → Fin 32 → State} (hf : ∀ s i, StoreMoves s (f s i))
    (is : List (Fin 32)) (s : State) : StoreMoves s (is.foldl f s) := by
  induction is generalizing s with
  | nil => exact .refl
  | cons i is ih => exact (hf s i).trans (ih _)

theorem lineEventTaken_storeMoving : StoreMoving s (execLineEventTaken i s) := by
  refine .whenever fun _ => ?_
  unfold State.takeLineEvent
  dsimp only
  refine .after_keeps (t := s.setSlot i { s.slot i with offered := (s.slot i).offered.tail }) ?_ rfl
  split
  · unfold State.judgeLineEvent
    split
    · exact .refl
    · exact .refl
    · exact .keeps rfl
    · exact .keeps rfl
    · exact .keeps rfl
    · exact conditionTrue_storeMoves _ _
  · exact .refl

theorem armExpiry_storeMoving : StoreMoving s (execArmExpiry i s) := by
  refine .whenever fun _ => ?_
  split
  · exact fire_storeMoves _ _ _
  · exact closeSlot_storeMoves _ _

theorem firingCompletion_storeMoving : StoreMoving s (execFiringCompletion i s) := by
  unfold execFiringCompletion
  split
  · exact .next returnToWatch_storeMoves
  · exact .whenever_keeps rfl

theorem intervalTimerExpiry_storeMoving : StoreMoving s (execIntervalTimerExpiry i s) :=
  .whenever fun _ => .after_keeps scanDue_storeMoves rfl

theorem firedRecordTaken_storeMoving : StoreMoving s (execFiredRecordTaken i s) := by
  refine .whenever fun hc => ?_
  have hroom : s.HasRoom := by
    rw [State.canTakeFired, Bool.and_eq_true, Bool.and_eq_true, s.postRoom_iff] at hc
    obtain ⟨⟨-, hroom⟩, -⟩ := hc
    exact hroom
  unfold State.takeFired
  split
  · exact .refl
  next r _ => exact .posts (.fired r) hroom (State.stores_noteRequest _ i)

theorem orderDoneTaken_storeMoving : StoreMoving s (execOrderDoneTaken i s) := by
  refine .whenever fun hc => ?_
  simp only [State.canTakeOrderDone, Bool.and_eq_true, s.postRoom_iff] at hc
  obtain ⟨⟨⟨-, hroom⟩, -⟩, -⟩ := hc
  exact .posts _ hroom (State.stores_fenceIfEmpty _)

end

/-! ### The converter and the Staging Buffer -/

section
variable {s : State} {i : Fin 32}

theorem grant_storeMoving : StoreMoving s (execGrant s) := by
  refine .whenever fun hc => .single ?_
  obtain ⟨-, hidle, hroom, -⟩ := s.canGrant_iff.1 hc
  exact .grants hidle hroom

/-- A conversion takes the place of the one under way. -/
theorem storeMoves_conversion {c : Conversion} (hc : s.sched.conversion = some c)
    (d : Conversion) : StoreMoves s { s with sched.conversion := some d } :=
  .empties ⟨le_rfl, by rw [hc]; exact le_rfl, le_rfl, .refl _⟩

theorem entrySettled_storeMoving : StoreMoving s (execEntrySettled s) := by
  unfold execEntrySettled
  split
  · exact .same
  next c hc => exact .next (storeMoves_conversion (State.settledScan_eq_some hc) _)

/-- The result of a scan takes the place that the scan in conversion had (R82, R83). -/
theorem endScan_storeMoves {c : Conversion} (hc : s.sched.conversion = some c) (d : Conversion) :
    StoreMoves s (s.endScan d) := by
  refine .empties ⟨le_rfl, ?_, le_rfl, .refl _⟩
  rw [hc]
  show (s.sched.staging ++ [s.scanResult d]).length ≤ s.sched.staging.length + 1
  rw [List.length_append, List.length_singleton]

theorem conversionDone_storeMoving (nanovolts : Int) :
    StoreMoving s (execConversionDone nanovolts s) := by
  unfold execConversionDone
  split
  · exact .same
  next c hc =>
    obtain ⟨-, hconv⟩ := State.convertedScan_eq_some hc
    refine .next ?_
    split
    · exact endScan_storeMoves hconv _
    · exact storeMoves_conversion hconv _

/-- The oldest result leaves the Staging Buffer, and its slot takes the resolution (R51, R65). -/
theorem takesResult_storeMoves {u : State}
    (h : u.stores = State.stores { s with sched.staging := s.sched.staging.tail }) :
    StoreMoves s (u.afterResolved i) :=
  .after_empties (.after_keeps afterResolved_storeMoves h)
    ⟨le_rfl, Nat.add_le_add_right (List.tail_sublist _).length_le _, le_rfl, .refl _⟩

theorem storeResult_storeMoves (r : ScanResult) (p : OpenPage) :
    StoreMoves s (s.storeResult r p) := by
  rw [State.storeResult_eq]
  exact takesResult_storeMoves rfl

theorem dropResult_storeMoves (r : ScanResult) : StoreMoves s (s.dropResult r) := by
  rw [State.dropResult_eq]
  exact takesResult_storeMoves rfl

theorem noFuller_cacheTail {d : Descriptor} {ds : List Descriptor} (h : s.pages.cache = d :: ds) :
    NoFuller s { s with pages.cache := ds } :=
  ⟨le_rfl, le_rfl, by rw [h]; exact Nat.add_le_add_right (Nat.le_succ _) _, .refl _⟩

theorem resultTaken_storeMoving : StoreMoving s (execResultTaken s) := by
  unfold execResultTaken
  split
  · exact .same
  next r _ =>
    refine .next ?_
    unfold State.placeResult
    split
    · split
      · exact storeResult_storeMoves r _
      · exact .keeps rfl
    next d ds _ hcache =>
      refine .after_empties (storeResult_storeMoves r d.openPage) ?_
      exact noFuller_cacheTail hcache
    · exact dropResult_storeMoves r

end

/-! ### Pages and the pool -/

section
variable {s : State} {i : Fin 32}

theorem poolReadIssue_storeMoving : StoreMoving s (execPoolReadIssue s) := by
  refine .whenever fun hc => ?_
  simp only [State.canReadPool, Bool.and_eq_true, Option.isNone_iff_eq_none,
    decide_eq_true_eq] at hc
  obtain ⟨⟨⟨-, hidle⟩, hroom⟩, -⟩ := hc
  exact .tail (.single (.readsPool _ hidle hroom)) (.empties _ (.of_stores rfl))

/-- A descriptor takes the place in the Buffer Cache that was kept for its read (R91). -/
theorem poolReadData_storeMoving (tag : Nat) (data : BitVec 128) :
    StoreMoving s (execPoolReadData tag data s) := by
  refine .whenever fun hc => .empties ?_
  rw [Bool.and_eq_true, Option.any_eq_true] at hc
  obtain ⟨-, r, hread, -⟩ := hc
  split
  · exact ⟨le_rfl, le_rfl, Nat.add_le_add_left (Nat.zero_le _) _, .refl _⟩
  · refine ⟨le_rfl, le_rfl, ?_, .refl _⟩
    show (s.pages.cache ++ [Descriptor.ofRecord data]).length + 0 ≤ _
    rw [hread, List.length_append]
    exact le_rfl

theorem pageCloseRequest_storeMoving : StoreMoving s (execPageCloseRequest i s) := by
  unfold execPageCloseRequest
  split
  · exact .keeps rfl
  · exact .whenever_keeps rfl

theorem flushExpiry_storeMoving : StoreMoving s (execFlushExpiry i s) := by
  unfold execFlushExpiry
  split <;> exact .keeps rfl

theorem noFuller_endStall : NoFuller s s.endStall := by
  refine ⟨?_, ?_, ?_, ?_⟩
  · rw [s.endStall_post]
  · rw [s.endStall_staging, s.endStall_conversion]
    split
    · rw [List.length_map]
    · exact le_rfl
  · rw [s.endStall_pages]
  · rw [s.endStall_due]

theorem pageClose_storeMoving : StoreMoving s (execPageClose i s) := by
  unfold execPageClose
  split
  · exact .same
  next c hc =>
    have hroom : s.HasRoom := by
      unfold State.closablePage at hc
      split at hc
      next h =>
        rw [Bool.and_eq_true, Bool.and_eq_true, s.postRoom_iff] at h
        obtain ⟨⟨-, hroom⟩, -⟩ := h
        exact hroom
      · cases hc
    have hstall : s.endStall.HasRoom := by
      unfold State.HasRoom; rw [s.endStall_post]; exact hroom
    exact .next (.after_empties (.posts _ hstall rfl) noFuller_endStall)

theorem unusedReturn_storeMoving : StoreMoving s (execUnusedReturn s) := by
  unfold execUnusedReturn
  split
  · exact .same
  next d ds hcache =>
    refine .whenever fun hc => ?_
    have hroom : s.HasRoom := s.postRoom_iff.1 ((Bool.and_eq_true _ _).mp hc).2
    refine .after_empties (t := { s with pages.cache := ds }) (.posts _ hroom rfl) ?_
    exact noFuller_cacheTail hcache

end

/-! ### Completion records -/

section
variable {s : State}

theorem noticeTaken_storeMoving : StoreMoving s (execNoticeTaken s) := by
  refine .whenever fun hc => ?_
  have hroom : s.HasRoom := by
    rw [State.canTakeNotice, Bool.and_eq_true, Bool.and_eq_true, s.postRoom_iff] at hc
    obtain ⟨⟨-, hroom⟩, -⟩ := hc
    exact hroom
  unfold State.takeNotice
  split
  · exact .posts _ hroom rfl
  · exact .posts _ hroom rfl
  · exact .refl

theorem recordWrite_storeMoving : StoreMoving s (execRecordWrite s) := by
  refine .whenever fun _ => ?_
  unfold State.writeRecord
  split
  · exact .refl
  next r rs hqueue =>
    refine .after_empties (t := { s with post.queue := rs }) ?_
      ⟨by rw [hqueue]; exact Nat.le_succ _, le_rfl, le_rfl, .refl _⟩
    dsimp only
    split
    · exact .keeps ((State.stores_setFlag _ _).trans (State.stores_moderate _))
    · exact .keeps (State.stores_moderate _)

/-! ### Orders -/

theorem State.takeable_hasRoom {p : HeldOrder → Bool} {o : HeldOrder} (h : s.takeable p = some o) :
    s.HasRoom := by
  unfold State.takeable at h
  split at h
  next hm => exact s.postRoom_iff.1 ((Bool.and_eq_true _ _).mp hm).2
  · cases h

theorem takeAndAnswer_storeMoves (hroom : s.HasRoom) (o : HeldOrder) (status : Status) :
    StoreMoves s (s.takeAndAnswer o status) :=
  .posts _ hroom rfl

theorem takeSlotOrder_storeMoving {kind : Byte} :
    StoreMoving s (s.whenever (s.maySlot kind) s.takeSlotOrder) := by
  refine .whenever fun hc => ?_
  have hroom : s.HasRoom := s.postRoom_iff.1 ((Bool.and_eq_true _ _).mp hc).2
  unfold State.takeSlotOrder
  split
  · unfold State.takeForSlot
    split
    · exact takeAndAnswer_storeMoves hroom _ _
    · split
      · exact takeAndAnswer_storeMoves hroom _ _
      · exact .after_keeps (t := s.takeHeld) (giveSlot_storeMoves _ _) rfl
  · exact .refl

theorem cancel_storeMoving : StoreMoving s (execCancel s) := by
  unfold execCancel
  split
  · exact .same
  next o ho =>
    have hroom := State.takeable_hasRoom ho
    refine .next ?_
    unfold State.takeCancel
    split
    · exact takeAndAnswer_storeMoves hroom _ _
    next i _ =>
      have hpost : (s.completeFiring i).post = s.post :=
        (congrArg State.post (s.frame_completeFiring i) : (s.completeFiring i).frame.post = _)
      have hroom' : (s.completeFiring i).HasRoom := by
        unfold State.HasRoom; rw [hpost]; exact hroom
      exact (completeFiring_storeMoves.trans (takeAndAnswer_storeMoves hroom' _ _)).trans
        (closeSlot_storeMoves _ _)

theorem lines_storeMoving : StoreMoving s (execLines s) := by
  unfold execLines
  split
  · exact .same
  next o ho =>
    exact .next ((takeAndAnswer_storeMoves (State.takeable_hasRoom ho) o .ok).trans
      (StoreMoves.keeps (State.stores_retimeLines _ _ _)))

theorem badOrder_storeMoving : StoreMoving s (execBadOrder s) := by
  unfold execBadOrder
  split
  · exact .same
  next o ho => exact .next (takeAndAnswer_storeMoves (State.takeable_hasRoom ho) o _)

theorem fence_storeMoving : StoreMoving s (execFence s) := by
  unfold execFence
  split
  · exact .same
  · exact .keeps (State.stores_fenceIfEmpty _)

theorem fenceDoneTaken_storeMoving : StoreMoving s (execFenceDoneTaken s) := by
  unfold execFenceDoneTaken
  split
  · exact .same
  next r hr =>
    have hroom : s.HasRoom := by
      unfold State.fenceRecord at hr
      split at hr
      next h => exact s.postRoom_iff.1 ((Bool.and_eq_true _ _).mp h).2
      · cases hr
    exact .next (.posts r hroom rfl)

theorem orderReadData_storeMoving (tag : Nat) (data : BitVec 512) :
    StoreMoving s (execOrderReadData tag data s) := by
  unfold execOrderReadData
  split
  · exact .same
  · split
    · split <;> exact .keeps rfl
    · exact .keeps rfl

end

/-! ### Run state transitions and the register window -/

section
variable {s : State}

theorem setupData_storeMoves (c : SetupCopy) : StoreMoves s (s.setupData c) := by
  unfold State.setupData
  split
  · exact .keeps (s.stores_endStart _)
  · split
    · exact .clears (State.stores_retimeLines _ _ _)
    · exact .keeps (s.stores_endStart _)

theorem enterFaulted_storeMoves (code : FaultCode) : StoreMoves s (s.enterFaulted code) := by
  obtain ⟨-, -, h⟩ := s.enterFaulted_entersFaulted code
  rw [h]
  exact .empties ⟨le_rfl, Nat.add_le_add_left (Nat.zero_le _) _, le_rfl, .refl _⟩

theorem faults_storeMoving {ready : Bool} (code : FaultCode) :
    StoreMoving s (s.whenever ready (s.enterFaulted code)) :=
  .whenever fun _ => enterFaulted_storeMoves code

theorem completionTimeout_storeMoving (tag : Nat) : StoreMoving s (execCompletionTimeout tag s) := by
  unfold execCompletionTimeout
  split
  · exact .keeps (s.stores_endStart _)
  · split
    · exact .next (enterFaulted_storeMoves _)
    · exact faults_storeMoving _

theorem beginStop_storeMoves (lossFirst : BitVec 32) : StoreMoves s (s.beginStop lossFirst) := by
  have hfirings : StoreMoves s (slotNumbers.foldl State.completeFiring s) :=
    foldl_storeMoves (f := State.completeFiring) (fun _ _ => completeFiring_storeMoves) slotNumbers s
  rw [s.beginStop_eq]
  exact hfirings.trans (StoreMoves.after_keeps
    (foldl_storeMoves (fun _ _ => haltSlot_storeMoves lossFirst) slotNumbers _)
    (State.stores_stopBegun _))

theorem writeRun1_storeMoves : StoreMoves s s.writeRun1 := by
  unfold State.writeRun1
  split
  · exact .keeps s.stores_beginStart
  · exact .keeps rfl
  · exact .refl
  · exact .refl
  · exact .keeps s.stores_refuseWrite

theorem writeRun0_storeMoves (lossFirst : BitVec 32) : StoreMoves s (s.writeRun0 lossFirst) := by
  unfold State.writeRun0
  split
  · exact .keeps rfl
  · exact .keeps rfl
  · exact beginStop_storeMoves lossFirst
  · exact .keeps s.stores_refuseWrite
  · exact .clears (State.stores_resumeLines _)

theorem hostReset_storeMoves : StoreMoves s s.resetByHost := by
  unfold State.resetByHost
  split
  · exact .clears (State.stores_resumeLines _)
  · exact .clears rfl

theorem powerReset_storeMoves : StoreMoves s s.resetByPower :=
  .clears (State.stores_commitLines _ _ _)

theorem stopComplete_storeMoving : StoreMoving s (execStopComplete s) :=
  .whenever_keeps ((State.stores_setFlag _ _).trans (State.stores_flushModeration _))

theorem writeControl_storeMoves (value : BitVec 32) : StoreMoves s (s.writeControl value) := by
  unfold State.writeControl
  split
  · exact hostReset_storeMoves
  · split
    · exact writeRun1_storeMoves
    · exact writeRun0_storeMoves 0

theorem writeWindow_storeMoves (offset : BitVec 6) (width : AccessWidth) (value : BitVec 32) :
    StoreMoves s (s.writeWindow offset width value) := by
  unfold State.writeWindow
  split
  · exact .keeps s.stores_refuseWrite
  split
  · exact writeControl_storeMoves value
  split
  · exact .keeps (s.stores_withEvents _)
  split
  · exact .keeps (s.stores_withEvents _)
  split
  · exact .keeps rfl
  split
  · exact .keeps rfl
  split
  · exact .keeps (s.stores_writeOrderTail value)
  split
  · exact .keeps (s.stores_writePoolTail value)
  split
  · exact .keeps (s.stores_writeDoneHead value)
  · exact .keeps s.stores_refuseWrite

theorem rawLevelChange_storeMoving (k : Fin 16) (level sameMoment : Bool) :
    StoreMoving s (execRawLevelChange k level sameMoment s) := by
  unfold execRawLevelChange
  dsimp only
  split
  · exact .same
  · split
    · exact .keeps rfl
    · exact .keeps (s.stores_commitLines _ _)

/-! ### Every command, and a microsecond -/

/-- Every command is a sequence of moves of the stores. -/
theorem exec_storeMoving (c : Instr) : StoreMoving s (exec c s) := by
  cases c with
  | rawLevelChange k level sameMoment => exact rawLevelChange_storeMoving k level sameMoment
  | qualificationTimerExpiry k sameMoment => exact .whenever_keeps (s.stores_commitLines _ _)
  | lineEventTaken i => exact lineEventTaken_storeMoving
  | holdExpiry i => exact .whenever fun _ => fire_storeMoves _ _ _
  | armExpiry i => exact armExpiry_storeMoving
  | delayExpiry i => exact .whenever fun _ => fire_storeMoves _ _ _
  | gateOpening i => exact .whenever fun _ => enterWatch_storeMoves _
  | gateLoss i => exact .whenever fun _ => closeSlot_storeMoves _ _
  | firedRecordTaken i => exact firedRecordTaken_storeMoving
  | firingCompletion i => exact firingCompletion_storeMoving
  | orderDoneTaken i => exact orderDoneTaken_storeMoving
  | intervalTimerExpiry i => exact intervalTimerExpiry_storeMoving
  | grant => exact grant_storeMoving
  | entrySettled => exact entrySettled_storeMoving
  | conversionDone nanovolts => exact conversionDone_storeMoving nanovolts
  | poolReadIssue => exact poolReadIssue_storeMoving
  | poolReadData tag data => exact poolReadData_storeMoving tag data
  | resultTaken => exact resultTaken_storeMoving
  | pageCloseRequest i => exact pageCloseRequest_storeMoving
  | flushExpiry i => exact flushExpiry_storeMoving
  | pageClose i => exact pageClose_storeMoving
  | unusedReturn => exact unusedReturn_storeMoving
  | noticeTaken => exact noticeTaken_storeMoving
  | recordWrite => exact recordWrite_storeMoving
  | moderationTimerExpiry => exact .whenever_keeps s.stores_signalDone
  | orderReadIssue => exact .whenever_keeps rfl
  | orderReadData tag data => exact orderReadData_storeMoving tag data
  | arm => exact takeSlotOrder_storeMoving
  | sample => exact takeSlotOrder_storeMoving
  | cancel => exact cancel_storeMoving
  | lines => exact lines_storeMoving
  | fence => exact fence_storeMoving
  | badOrder => exact badOrder_storeMoving
  | fenceLimitExpiry => exact .whenever_keeps rfl
  | fenceDoneTaken => exact fenceDoneTaken_storeMoving
  | runWritten1 => exact .next writeRun1_storeMoves
  | runWritten0 lossFirst => exact .next (writeRun0_storeMoves lossFirst)
  | hostReset => exact .next hostReset_storeMoves
  | eventsWrite width value => exact .next (writeWindow_storeMoves _ _ _)
  | eventMaskWrite width value => exact .next (writeWindow_storeMoves _ _ _)
  | orderTailWrite value => exact .keeps (s.stores_writeOrderTail value)
  | poolTailWrite value => exact .keeps (s.stores_writePoolTail value)
  | doneHeadWrite value => exact .keeps (s.stores_writeDoneHead value)
  | registerWrite offset width value => exact .next (writeWindow_storeMoves _ _ _)
  | setupReadData tag data => exact .whenever fun _ => setupData_storeMoves _
  | setupReadError tag => exact .whenever_keeps (s.stores_endStart _)
  | stopComplete => exact stopComplete_storeMoving
  | fetchError tag => exact faults_storeMoving _
  | poolError tag => exact faults_storeMoving _
  | pageError => exact faults_storeMoving _
  | postError => exact faults_storeMoving _
  | completionTimeout tag => exact completionTimeout_storeMoving tag
  | linkDown => exact faults_storeMoving _
  | powerOnReset => exact .next powerReset_storeMoves
  | linkReset => exact .next powerReset_storeMoves
  | configurationSpaceWrite busMaster msi => exact .keeps rfl

/-- A microsecond moves nothing: of the stores, the scan in conversion and the read in flight alone
count it (R77, R151). -/
theorem tick_storeMoves : StoreMoves s s.tick := by
  have hblocks : NoFuller s s.tickLines.tickBlocks :=
    ⟨le_rfl, by simp [State.tickBlocks, State.tickLines, Option.toList_map],
      by simp [State.tickBlocks, State.tickLines, Option.toList_map], .refl _⟩
  unfold State.tick
  split
  · exact .keeps rfl
  · exact .keeps rfl
  · exact .empties hblocks
  · exact .empties hblocks
  · exact .keeps rfl

theorem step_storeMoves {t : State} (h : step s = .next t) : StoreMoves s t := by
  unfold step at h
  split at h
  · refine StoreMoving.next (s := s) ?_ t h
    split
    · exact .refl
    · exact tick_storeMoves
  next c rest _ =>
    have hqueue : StoreMoves s (s.withPending rest) := .keeps rfl
    exact hqueue.trans (exec_storeMoving c t h)

/-- What every move of the stores keeps, every step keeps. -/
theorem stored_of_step {P : State → Prop} (hm : ∀ s t, P s → StoreMove s t → P t) {t : State}
    (h : P s) (hstep : step s = .next t) : P t := by
  have hmoves := step_storeMoves hstep
  clear hstep
  induction hmoves with
  | refl => exact h
  | tail _ hmove ih => exact hm _ _ ih hmove

end

end Sys2Proof.Machine
end

/-! ## The stores keep their bounds and the Due Queue its order (O52, O53) -/

section
namespace Sys2Proof.Machine

variable {s t : State}

/-- A store that is not fuller than before is within its capacity. -/
theorem NoFuller.withinCapacity (h : NoFuller s t) (hs : WithinCapacity s) : WithinCapacity t := by
  obtain ⟨hqueue, hscans, hdescriptors⟩ := hs
  exact ⟨h.queue.trans hqueue, h.scans.trans hscans, h.descriptors.trans hdescriptors⟩

/-- Each place that a move takes is free before it: R131 for a record, R72 for the scan that is
granted, R89 for the descriptor that is read. -/
theorem StoreMove.withinCapacity (h : StoreMove s t) (hs : WithinCapacity s) :
    WithinCapacity t := by
  obtain ⟨hqueue, hscans, hdescriptors⟩ := hs
  cases h with
  | empties _ hle => exact hle.withinCapacity ⟨hqueue, hscans, hdescriptors⟩
  | posts r hroom =>
    refine ⟨?_, hscans, hdescriptors⟩
    rw [State.postRecord_queue, List.length_append, List.length_singleton]
    exact hroom
  | inserts _ e _ hframe _ =>
    have hcapacity : WithinCapacity s.frame := ⟨hqueue, hscans, hdescriptors⟩
    rw [← hframe] at hcapacity
    exact hcapacity
  | grants hidle hroom =>
    unfold State.grantHead
    split
    · exact ⟨hqueue, hscans, hdescriptors⟩
    · exact ⟨hqueue, hroom, hdescriptors⟩
  | readsPool r _ hroom => exact ⟨hqueue, hscans, hroom⟩

/-- Settles O52, move by move of the stores. -/
theorem everyStepKeepsCapacities : Obligations.EveryStepKeepsCapacities :=
  fun _ _ => stored_of_step fun _ _ hs hm => hm.withinCapacity hs

/-- Entries leave the Due Queue from anywhere, and one enters at its place alone, for a slot that has
none. -/
theorem StoreMove.grantOrdered (h : StoreMove s t) (hs : GrantOrdered s.sched.due) :
    GrantOrdered t.sched.due := by
  cases h with
  | empties _ hle => exact hs.sublist hle.due
  | posts r _ => exact hs
  | inserts _ e hnew _ hdue => rw [hdue]; exact hs.insertDue hnew
  | grants _ _ =>
    unfold State.grantHead
    split
    · exact hs
    next d ds hdue => exact hs.sublist (hdue ▸ List.sublist_cons_self d ds)
  | readsPool r _ _ => exact hs

/-- Settles O53, move by move of the stores. -/
theorem everyStepKeepsGrantOrder : Obligations.EveryStepKeepsGrantOrder :=
  fun _ _ => stored_of_step (P := fun s => GrantOrdered s.sched.due)
    fun _ _ hs hm => hm.grantOrdered hs

end Sys2Proof.Machine
end

/-! ## The grid (O14) -/

section
namespace Sys2Proof.Machine

variable {s : State} {i : Fin 32} {n : Nat}

/-- The record of a slot whose interval timer has expired: the grid has moved on, unless the scan that
becomes due is the order's last (R64, R66). -/
theorem Slot.raiseDue_nextGridPoint (x : Slot) :
    x.nextGridPoint.raiseDue =
      { x with
        dueCount := min (x.dueCount + 1) 65535
        becameDue := x.becameDue + 1
        intervalTimer := if x.order.scanCount ≠ 0
            ∧ min (x.dueCount + 1) 65535 = x.order.scanCount.toNat
          then none else some 0
        nextDue := if x.order.scanCount ≠ 0
            ∧ min (x.dueCount + 1) 65535 = x.order.scanCount.toNat
          then none else x.nextDue.map fun m => m + x.order.interval.toNat } := by
  rw [Slot.raiseDue_eq]; rfl

theorem exec_intervalTimerExpiry (hrun : s.run.runState = .running)
    (hstate : (s.slot i).state = .running) (hinterval : (s.slot i).order.interval ≠ 0)
    (htimer : (s.slot i).intervalTimer = some n) (hn : (s.slot i).order.interval.toNat ≤ n) :
    exec (.intervalTimerExpiry i) s = .next ((s.setSlot i (s.slot i).nextGridPoint).scanDue i) := by
  refine s.whenever_true _ ?_
  simp only [State.canIntervalExpire, Bool.and_eq_true, s.isRunning_iff, beq_iff_eq, bne_iff_ne, Ne,
    Slot.intervalTime_eq_zero, timerReached_iff]
  exact ⟨⟨⟨hrun, hstate⟩, hinterval⟩, n, htimer, hn⟩

/-- A grid point without an entry of the slot waiting inserts one (R67). -/
theorem State.scanDue_nextGridPoint_inserts (hn : s.NoEntry i) :
    (s.setSlot i (s.slot i).nextGridPoint).scanDue i =
      { s.setSlot i (s.slot i).nextGridPoint.raiseDue with
        sched.due := insertDue (s.entryNow i) s.sched.due } := by
  have hentry : (s.setSlot i (s.slot i).nextGridPoint).entryNow i = s.entryNow i := by
    unfold State.entryNow
    rw [State.slot_setSlot_self]
    rfl
  rw [State.scanDue_becomesDue (s.setSlot i (s.slot i).nextGridPoint) i hn, State.slot_setSlot_self,
    State.setSlot_setSlot, ← Slot.raiseDue_eq, hentry]
  rfl

/-- A grid point with an entry of the slot waiting is counted missed, and with scans left the firing
goes on (R53, R67). -/
theorem State.scanDue_nextGridPoint_misses (hn : ¬ s.NoEntry i)
    (hleft : (s.slot i).order.scanCount = 0
      ∨ (s.slot i).resolved + 1 < (s.slot i).order.scanCount.toNat) :
    (s.setSlot i (s.slot i).nextGridPoint).scanDue i =
      s.setSlot i (s.slot i).nextGridPoint.raiseDue.afterMiss := by
  rw [State.scanDue_missed (s.setSlot i (s.slot i).nextGridPoint) i hn, State.slot_setSlot_self,
    State.setSlot_setSlot]
  refine State.endFiring_of_not_ending _ i ?_
  rw [State.slot_setSlot_self, ← Bool.not_eq_true, Slot.ending_iff, Slot.raiseDue_nextGridPoint]
  rintro ⟨-, hcount, hresolved⟩
  have hcount : (s.slot i).order.scanCount ≠ 0 := hcount
  have hlt := hleft.resolve_left hcount
  simp only [Slot.afterMiss, if_neg hcount] at hresolved
  omega

/-- Settles O14: the grid point moves the grid on, and its scan is inserted or counted missed. -/
theorem intervalExpiryMakesScanDue : Obligations.IntervalExpiryMakesScanDue := by
  intro s i n x due exhausted y hrun hstate hinterval htimer hn
  have hexec := exec_intervalTimerExpiry hrun hstate hinterval htimer hn
  have hy : x.nextGridPoint.raiseDue = y := x.raiseDue_nextGridPoint
  refine ⟨fun hnone => ?inserted, fun hwaits hleft => ?missed⟩
  case inserted => rw [hexec, State.scanDue_nextGridPoint_inserts hnone, hy]
  case missed => rw [hexec, State.scanDue_nextGridPoint_misses hwaits hleft, hy]

end Sys2Proof.Machine
end

/-! ## The conduct of an entry (O17) -/

section
namespace Sys2Proof.Machine

variable {s : State} {c : Conversion} {entry : ScanEntry} {n : Nat}

theorem Conversion.current_eq (h : c.entries[c.values.length]? = some entry) : c.current = entry := by
  rw [Conversion.current, h]; rfl

theorem exec_entrySettled (hlive : s.Live) (hconv : s.sched.conversion = some c)
    (hentry : c.entries[c.values.length]? = some entry) (hphase : c.phase = .settling n)
    (hn : (s.run.copy.channels[entry.channel]).settle.toNat ≤ n) :
    exec .entrySettled s =
      .next { s with sched.conversion := some { c with phase := .converting 0 } } := by
  obtain rfl := Conversion.current_eq hentry
  have hreached : s.settleTime c ≤ n := hn
  have hsettled : s.settledScan = some c := by
    simp [State.settledScan, s.isLive_iff.2 hlive, hconv, Option.filter, hphase, hreached]
  show execEntrySettled s = _
  rw [execEntrySettled, hsettled]

theorem exec_conversionDone (hlive : s.Live) (hconv : s.sched.conversion = some c)
    (hphase : c.phase = .converting n) (hn : 2 ≤ n) (nanovolts : Int) :
    exec (.conversionDone nanovolts) s =
      .next (if (c.addCode (conversionCode nanovolts)).finished
        then s.endScan (c.addCode (conversionCode nanovolts))
        else { s with sched.conversion := some (c.addCode (conversionCode nanovolts)) }) := by
  have hconverted : s.convertedScan = some c := by
    simp [State.convertedScan, s.isLive_iff.2 hlive, hconv, Option.filter, hphase,
      Config.conversionTime, hn]
  show execConversionDone nanovolts s = _
  rw [execConversionDone, hconverted]

/-- A conversion that is not the last of its entry adds its code to the sum (R79). -/
theorem Conversion.addCode_sums (code : BitVec 14) (hentry : c.current = entry)
    (h : c.made + 1 < entry.averaging.toNat) :
    c.addCode code =
      { c with sum := c.sum + code.toNat, made := c.made + 1, phase := .converting 0 } := by
  rw [Conversion.addCode, hentry, if_pos h]

/-- The last conversion of an entry forms its value, and the next entry settles (R77, R79). -/
theorem Conversion.addCode_forms (code : BitVec 14) (hentry : c.current = entry)
    (h : entry.averaging.toNat ≤ c.made + 1) :
    c.addCode code =
      { c with
        values := c.values ++ [BitVec.ofNat 14 ((c.sum + code.toNat) / entry.averaging.toNat)]
        sum := 0
        made := 0
        phase := .settling 0 } := by
  rw [Conversion.addCode, hentry, if_neg (Nat.not_lt.2 h)]; rfl

theorem Conversion.finished_iff : c.finished = true ↔ c.entries.length ≤ c.values.length := by
  simp [Conversion.finished]

/-- Settles O17: a scan is unfinished until the value of its last entry is formed. -/
theorem conversionRunsEntryByEntry : Obligations.ConversionRunsEntryByEntry := by
  intro s c entry n nanovolts x sum value hlive hconv hentry
  have hcurrent := Conversion.current_eq hentry
  have hunder : c.values.length < c.entries.length := (List.getElem?_eq_some_iff.1 hentry).1
  refine ⟨exec_entrySettled hlive hconv hentry, fun hphase hn => ?_⟩
  have hexec := exec_conversionDone hlive hconv hphase hn nanovolts
  refine ⟨fun hmade => ?sums, fun hmade hmore => ?next, fun hmade hlast => ?ends⟩
  case sums =>
    rw [hexec, Conversion.addCode_sums _ hcurrent hmade, if_neg]
    rw [Conversion.finished_iff]
    exact Nat.not_le.2 hunder
  case next =>
    rw [hexec, Conversion.addCode_forms _ hcurrent hmade, if_neg]
    rw [Conversion.finished_iff, List.length_append, List.length_singleton]
    exact Nat.not_le.2 hmore
  case ends =>
    rw [hexec, Conversion.addCode_forms _ hcurrent hmade, if_pos]
    · rfl
    · rw [Conversion.finished_iff, List.length_append, List.length_singleton]
      exact hlast.ge

end Sys2Proof.Machine
end

/-! ## The code of a conversion (O18) -/

section
namespace Sys2Proof.Machine

theorem conversionCode_toNat (v : Int) :
    (conversionCode v).toNat = min ((v + 10000000000) * 16384 / 20000000000).toNat 16383 := by
  rw [conversionCode, BitVec.toNat_ofNat]
  exact Nat.mod_eq_of_lt (by omega)

/-- Settles O18: within the range the floor is a code, and the two ends hold it. -/
theorem conversionCodeRoundsDownAndClamps : Obligations.ConversionCodeRoundsDownAndClamps := by
  refine ⟨fun v h => ?low, fun v h => ?high, fun v hlow hhigh => ?within, rfl⟩
  case low =>
    refine BitVec.eq_of_toNat_eq ((conversionCode_toNat v).trans ?_)
    show _ = 0
    omega
  case high =>
    refine BitVec.eq_of_toNat_eq ((conversionCode_toNat v).trans ?_)
    show _ = 16383
    omega
  case within =>
    rw [conversionCode_toNat]
    omega

end Sys2Proof.Machine
end

/-! ## The reads at the heads of the rings (O19) -/

section
namespace Sys2Proof.Machine

variable (s : State)

/-- The conditions of a descriptor read (R89). -/
theorem State.canReadPool_iff : s.canReadPool = true ↔ s.run.runState = .running
    ∧ s.pages.poolRead = none ∧ s.pages.cache.length < 8 ∧ s.pages.poolHead ≠ s.window.poolTail := by
  unfold State.canReadPool Config.cacheSize
  simp only [Bool.and_eq_true, State.isRunning_iff, Option.isNone_iff_eq_none, decide_eq_true_eq,
    bne_iff_ne, and_assoc]

/-- The conditions of an order read (R111, R116). -/
theorem State.canReadOrder_iff : s.canReadOrder = true ↔ s.run.runState = .running
    ∧ s.fetch.state = .idle ∧ s.window.orderTail ≠ s.fetch.head
    ∧ s.run.orderNumber ≠ 0xFFFFFFFF := by
  simp only [State.canReadOrder, Bool.and_eq_true, State.isRunning_iff, beq_iff_eq, bne_iff_ne,
    and_assoc]

/-- Settles O19: under the conditions of R89 and of R111 and R116 the command has its effect. -/
theorem readsAreIssuedAtTheHeads : Obligations.ReadsAreIssuedAtTheHeads := by
  intro s hrun
  refine ⟨fun hidle hroom hentry => ?pool, fun hidle hentry hnumber => ?order⟩
  case pool => exact s.whenever_true _ (s.canReadPool_iff.2 ⟨hrun, hidle, hroom, hentry⟩)
  case order => exact s.whenever_true _ (s.canReadOrder_iff.2 ⟨hrun, hidle, hentry, hnumber⟩)

end Sys2Proof.Machine
end

/-! ## Descriptors that return (O20) and descriptors that go back (O25) -/

section
namespace Sys2Proof.Machine

variable (s : State)

/-! ### The data of a descriptor read (R88, R90) -/

/-- A descriptor is bad by the two cases of R90. -/
theorem Descriptor.bad_iff (d : Descriptor) :
    d.bad = true ↔ d.address = 0 ∨ ¬ 64 ∣ d.address.toNat := by
  rw [Descriptor.bad, Bool.or_eq_true, beq_iff_eq, misaligned_iff]

/-- The data that answers the pool read is taken: its descriptor is reported or cached (R90). -/
theorem exec_poolReadData {tag : Nat} {data : BitVec 128} {r : BusRead} (hlive : s.Live)
    (hread : s.pages.poolRead = some r) (htag : r.tag = tag) (hrefused : r.refused = false) :
    exec (.poolReadData tag data) s =
      .next (if (Descriptor.ofRecord data).bad
        then s.poolAnswered.reportBad (Descriptor.ofRecord data).ident
        else s.poolAnswered.cacheDescriptor (Descriptor.ofRecord data)) := by
  refine s.whenever_true _ ?_
  rw [s.isLive_iff.2 hlive, hread]
  simp [BusRead.answeredBy, htag, hrefused]

/-- Settles O20, by whether the descriptor is bad (R90). -/
theorem descriptorJoinsCacheOrIsBad : Obligations.DescriptorJoinsCacheOrIsBad := by
  intro s tag data r address ident head hlive hread htag hrefused
  have hexec := exec_poolReadData s (data := data) hlive hread htag hrefused
  have hbad := (Descriptor.ofRecord data).bad_iff
  refine ⟨fun h => ?bad, fun hne haligned => ?good⟩
  case bad =>
    rw [hexec, if_pos (hbad.2 h)]
    rfl
  case good =>
    rw [hexec, if_neg (mt hbad.1 (not_or.2 ⟨hne, not_not.2 haligned⟩))]
    rfl

/-! ### The return of a cached descriptor (R106) -/

/-- The conditions of an UNUSED return (R106). -/
theorem State.canReturnUnused_iff : s.canReturnUnused = true ↔ s.run.runState = .stopping
    ∧ (∀ j, (s.slot j).state = .free) ∧ s.pages.poolRead = none ∧ s.HasRoom := by
  simp only [State.canReturnUnused, Bool.and_eq_true, beq_iff_eq, State.allFree_iff,
    Option.isNone_iff_eq_none, State.postRoom_iff, and_assoc]

/-- What the command does to the oldest cached descriptor. -/
theorem exec_unusedReturn {d : Descriptor} {ds : List Descriptor}
    (hcache : s.pages.cache = d :: ds) :
    exec .unusedReturn s = s.whenever s.canReturnUnused
      ({ s with pages.cache := ds }.postRecord (.page d.unusedRecord)) := by
  show execUnusedReturn s = _
  rw [execUnusedReturn, hcache]

/-- Settles O25: the conditions of R106 hold, or one of them fails. -/
theorem unusedDescriptorReturns : Obligations.UnusedDescriptorReturns := by
  intro s d ds hcache
  rw [exec_unusedReturn s hcache]
  refine ⟨fun hstop hfree hidle hroom => ?returned, fun hkept => ?kept⟩
  case returned => exact s.whenever_true _ (s.canReturnUnused_iff.2 ⟨hstop, hfree, hidle, hroom⟩)
  case kept =>
    refine s.whenever_false _ ((Bool.not_eq_true _).mp fun hcan => ?_)
    obtain ⟨-, hfree, hidle, hroom⟩ := s.canReturnUnused_iff.1 hcan
    rcases hkept with ⟨j, hj⟩ | hread | hfull
    · exact hj (hfree j)
    · exact hread hidle
    · exact hfull hroom

end Sys2Proof.Machine
end

/-! ## The begin of a page close (O23) -/

section
namespace Sys2Proof.Machine

variable (s : State) {i : Fin 32} {p : OpenPage}

/-! ### A full page (R94, R100) -/

theorem State.placeResult_of_full {r : ScanResult} (hp : (s.slot r.slot).openPage = some p)
    (hfull : s.run.copy.pageSize.toNat < p.fill + (12 + 2 * r.values.length + 3) / 4 * 4) :
    s.placeResult r = s.beginClose r.slot p PageFlags.none false := by
  have hfits : s.fits p r = false := decide_eq_false (Nat.not_le.2 hfull)
  simp only [State.placeResult, hp, hfits, Bool.false_eq_true, if_false]

/-! ### The request of a slot (R101, Table 5-6) -/

theorem Slot.closeFlags_of_asks {x : Slot} (h : x.Asks) :
    x.closeFlags = { endOfFiring := x.state = .running ∨ x.endReason = some .ok
                     endOfOrder := x.state = .closing
                     flushed := false
                     unused := false } := by
  obtain ⟨-, ⟨hrunning, -⟩ | hclosing, -⟩ := h
  · simp [Slot.closeFlags, PageFlags.none, hrunning]
  · simp [Slot.closeFlags, PageFlags.none, hclosing, Bool.beq_eq_decide_eq]

theorem State.requestArose_eq (i : Fin 32) : s.requestArose i = s.askedAt i := by
  unfold State.requestArose State.askedAt
  cases (s.slot i).requestSince <;> rfl

/-- The page whose close is asked for is there while the Page Writer takes the request (R105). -/
theorem State.requestedPage_of_takes (hlive : s.Live) (hasks : (s.slot i).Asks)
    (htakes : s.PageWriterTakes (s.askedAt i)) : s.requestedPage i = (s.slot i).openPage := by
  refine if_pos ?_
  rw [s.isLive_iff.2 hlive, (Slot.wantsClose_iff _).2 hasks, s.requestArose_eq,
    (s.mayWork_iff _).2 htakes]
  rfl

theorem State.requestedPage_of_not_takes (h : ¬ s.PageWriterTakes (s.askedAt i)) :
    s.requestedPage i = none := by
  refine if_neg fun hc => h ((s.mayWork_iff _).1 ?_)
  rw [← s.requestArose_eq]
  exact ((Bool.and_eq_true _ _).mp hc).2

theorem State.requestedPage_of_no_page (h : (s.slot i).openPage = none) :
    s.requestedPage i = none := by
  unfold State.requestedPage
  split
  · exact h
  · rfl

theorem exec_pageCloseRequest_of_page (h : s.requestedPage i = some p) :
    exec (.pageCloseRequest i) s = .next (s.closing i p (s.slot i).closeFlags true) := by
  show execPageCloseRequest i s = _
  rw [execPageCloseRequest, h, ← s.beginClose_closing]

theorem exec_pageCloseRequest_of_no_page (h : s.requestedPage i = none) :
    exec (.pageCloseRequest i) s =
      s.whenever (s.canSkipClose i) (s.setSlot i (s.slot i).pageSettled) := by
  show execPageCloseRequest i s = _
  rw [execPageCloseRequest, h]

/-- A request with no page to close is met at once (R101). -/
theorem exec_pageCloseRequest_skips (hlive : s.Live) (hasks : (s.slot i).Asks)
    (hopen : (s.slot i).openPage = none) (hclosing : (s.slot i).closingPage = none) :
    exec (.pageCloseRequest i) s =
      .next (s.setSlot i { s.slot i with handOn := .pageDone, requestSince := none }) := by
  have hskip : s.canSkipClose i = true := by
    rw [State.canSkipClose, s.isLive_iff.2 hlive, (Slot.wantsClose_iff _).2 hasks, hopen, hclosing]
    rfl
  obtain ⟨hsettled, -⟩ := (s.slot i).pageSettled_settles
  rw [exec_pageCloseRequest_of_no_page s (s.requestedPage_of_no_page hopen),
    s.whenever_true _ hskip, hsettled ⟨hasks, hopen, hclosing⟩]

/-- A request whose page the Page Writer does not take stays (R105). -/
theorem exec_pageCloseRequest_waits (hopen : (s.slot i).openPage = some p)
    (h : ¬ s.PageWriterTakes (s.askedAt i)) : exec (.pageCloseRequest i) s = .next s := by
  rw [exec_pageCloseRequest_of_no_page s (s.requestedPage_of_not_takes h)]
  refine s.whenever_false _ ?_
  simp [State.canSkipClose, hopen]

/-! ### The expiry of the age timer (R102) -/

theorem exec_flushExpiry {w : WorkItem} (hlive : s.Live) (hopen : (s.slot i).openPage = some p)
    (hexpired : p.expired = some w) :
    exec (.flushExpiry i) s =
      .next (if s.mayWork w.arose
        then s.beginClose i p { PageFlags.none with flushed := true } false else s) := by
  show execFlushExpiry i s = _
  rw [execFlushExpiry, State.expiredPage, s.isLive_iff.2 hlive, hopen]
  cases hmay : s.mayWork w.arose <;> simp [Option.filter, hexpired, hmay]

/-- Settles O23, by the four ways in which a close is asked for. -/
theorem pageCloseBegins : Obligations.PageCloseBegins := by
  intro s i hlive
  refine ⟨fun r rest p hstaging hslot hopen hfull => ⟨fun htakes => ?full, ?fullWaits⟩,
    fun p hasks hopen => ⟨fun htakes => ?asked, ?askedWaits⟩, ?skipped,
    fun p w hopen hexpired => ⟨fun htakes => ?flushed, fun hnot => ?flushWaits⟩⟩
  case full =>
    subst hslot
    rw [exec_resultTaken_places s hlive hstaging htakes, s.placeResult_of_full hopen hfull,
      s.beginClose_closing]
    rfl
  case fullWaits => exact exec_resultTaken_waits s hstaging
  case asked =>
    rw [exec_pageCloseRequest_of_page s ((s.requestedPage_of_takes hlive hasks htakes).trans hopen),
      Slot.closeFlags_of_asks hasks]
  case askedWaits => exact exec_pageCloseRequest_waits s hopen
  case skipped => exact exec_pageCloseRequest_skips s hlive
  case flushed =>
    rw [exec_flushExpiry s hlive hopen hexpired, if_pos ((s.mayWork_iff _).2 htakes),
      s.beginClose_closing]
    rfl
  case flushWaits =>
    rw [exec_flushExpiry s hlive hopen hexpired, if_neg (mt (s.mayWork_iff _).1 hnot)]

end Sys2Proof.Machine
end

/-! ## What the card has issued and flagged lasts (O60) -/

section
namespace Sys2Proof.Machine

/-! ### What lasts -/

/-- What the card has issued to the link and the flags of EVENTS. -/
def State.signals (s : State) : List LinkWrite × BitVec 5 := (s.link.issued, s.events.flags)

/-- All that `s` has issued stands in `t`, oldest first (R104, R132). -/
def IssuedStands (s t : State) : Prop := ∃ more, t.link.issued = s.link.issued ++ more

/-- All that `s` has issued stands in `t`, and every flag set in `s` is set in `t` (R140). -/
structure SignalsLast (s t : State) : Prop where
  issued : IssuedStands s t
  flags : ∀ k, s.events.flags.getLsbD k = true → t.events.flags.getLsbD k = true

/-- The command completes, and what was issued stands. -/
def CompletesStanding (s : State) (r : Result) : Prop := ∃ t, r = .next t ∧ IssuedStands s t

/-- The command completes, and what was issued and flagged lasts. -/
def CompletesLasting (s : State) (r : Result) : Prop := ∃ t, r = .next t ∧ SignalsLast s t

section
variable {s t u : State}

theorem State.signals_of_frame (h : t.frame = u.frame) : t.signals = u.signals :=
  (congrArg State.signals h : t.frame.signals = u.frame.signals)

theorem SignalsLast.still (h : t.signals = s.signals) : SignalsLast s t := by
  simp only [State.signals, Prod.mk.injEq] at h
  obtain ⟨hissued, hflags⟩ := h
  exact ⟨⟨[], by rw [hissued, List.append_nil]⟩, fun k hk => by rw [hflags]; exact hk⟩

theorem SignalsLast.refl (s : State) : SignalsLast s s := .still rfl

theorem IssuedStands.trans (h : IssuedStands s t) (h' : IssuedStands t u) : IssuedStands s u := by
  obtain ⟨more, hmore⟩ := h
  obtain ⟨more', hmore'⟩ := h'
  exact ⟨more ++ more', by rw [hmore', hmore, List.append_assoc]⟩

theorem SignalsLast.trans (h : SignalsLast s t) (h' : SignalsLast t u) : SignalsLast s u :=
  ⟨h.issued.trans h'.issued, fun k hk => h'.flags k (h.flags k hk)⟩

/-- What comes before leaves the signals alone. -/
theorem SignalsLast.after_still (h : SignalsLast t u) (ht : t.signals = s.signals) :
    SignalsLast s u :=
  (SignalsLast.still ht).trans h

/-- A slot's work neither issues nor flags anything. -/
theorem SignalsLast.of_frame (h : t.frame = s.frame) : SignalsLast s t :=
  .still (State.signals_of_frame h)

theorem CompletesLasting.next (h : SignalsLast s t) : CompletesLasting s (.next t) := ⟨t, rfl, h⟩

theorem CompletesLasting.same : CompletesLasting s (.next s) := .next (.refl s)

theorem CompletesLasting.still (h : t.signals = s.signals) : CompletesLasting s (.next t) :=
  .next (.still h)

theorem CompletesLasting.whenever {ready : Bool} (h : SignalsLast s t) :
    CompletesLasting s (s.whenever ready t) :=
  .next (by split; exacts [h, .refl s])

theorem CompletesLasting.whenever_still {ready : Bool} (h : t.signals = s.signals) :
    CompletesLasting s (s.whenever ready t) :=
  .whenever (.still h)

theorem CompletesLasting.whenever_frame {ready : Bool} (h : t.frame = s.frame) :
    CompletesLasting s (s.whenever ready t) :=
  .whenever (.of_frame h)

theorem CompletesLasting.standing {r : Result} (h : CompletesLasting s r) :
    CompletesStanding s r := by
  obtain ⟨t, hnext, hlast⟩ := h
  exact ⟨t, hnext, hlast.issued⟩

end

/-! ### Flags -/

section
variable (s : State) (i : Fin 32)

theorem State.withEvents_issuedStands (e : EventLogic) : IssuedStands s (s.withEvents e) := by
  rw [State.withEvents_eventsBecome]
  exact ⟨_, rfl⟩

theorem State.withEvents_last {e : EventLogic}
    (h : ∀ k, s.events.flags.getLsbD k = true → e.flags.getLsbD k = true) :
    SignalsLast s (s.withEvents e) := by
  refine ⟨s.withEvents_issuedStands e, ?_⟩
  rw [State.withEvents_eventsBecome]
  exact h

/-- A flag that is set adds to those already set (R140). -/
theorem State.setFlag_last (f : EventFlag) : SignalsLast s (s.setFlag f) :=
  s.withEvents_last fun k hk => by rw [BitVec.getLsbD_or, hk, Bool.true_or]

theorem State.refuseWrite_last : SignalsLast s s.refuseWrite := s.setFlag_last _

theorem State.signalDone_last : SignalsLast s s.signalDone :=
  .after_still (State.setFlag_last _ _) rfl

theorem State.moderate_last : SignalsLast s s.moderate := by
  unfold State.moderate
  dsimp only
  split
  · exact s.signalDone_last
  · exact .still rfl

theorem State.flushModeration_last : SignalsLast s s.flushModeration := by
  unfold State.flushModeration
  split
  · exact .still rfl
  · exact s.signalDone_last

/-! ### What leaves the signals alone -/

theorem State.signals_commitLines (v : Vector Line 16) (sameMoment : Bool) :
    (s.commitLines v sameMoment).signals = s.signals := by
  obtain ⟨-, h, -⟩ := s.commitLines_linesBecome v sameMoment
  rw [h]; rfl

theorem State.signals_endStall : s.endStall.signals = s.signals := by
  unfold State.endStall; split <;> rfl

theorem State.signals_fenceIfEmpty : s.fenceIfEmpty.signals = s.signals := by
  unfold State.fenceIfEmpty; split <;> rfl

theorem State.signals_takeNotice : s.takeNotice.signals = s.signals := by
  unfold State.takeNotice; split <;> rfl

theorem State.signals_poolData (d : Descriptor) :
    (if d.bad then s.poolAnswered.reportBad d.ident
      else s.poolAnswered.cacheDescriptor d).signals = s.signals := by
  split <;> rfl

theorem State.signals_grantHead : s.grantHead.signals = s.signals := by
  unfold State.grantHead; split <;> rfl

theorem State.signals_takeFired : (s.takeFired i).signals = s.signals := by
  unfold State.takeFired
  split
  · rfl
  · exact (State.signals_of_frame (State.frame_noteRequest _ i)).trans rfl

theorem State.frame_takeLineEvent : (s.takeLineEvent i).frame = s.frame := by
  unfold State.takeLineEvent State.judgeLineEvent State.conditionTrue
  dsimp only
  repeat' split
  all_goals simp

theorem State.signals_takeSlotOrder : s.takeSlotOrder.signals = s.signals := by
  unfold State.takeSlotOrder State.takeForSlot
  split
  · split
    · rfl
    · split
      · rfl
      · exact (State.signals_of_frame (s.takeHeld.frame_giveSlot _ _ _)).trans rfl
  · rfl

theorem State.signals_takeCancel (h : HeldOrder) : (s.takeCancel h).signals = s.signals := by
  unfold State.takeCancel
  split
  · rfl
  next j _ =>
    have hclosed := State.signals_of_frame
      (((s.completeFiring j).takeAndAnswer h .ok).frame_closeSlot j .cancelled s.now)
    have hanswered : ((s.completeFiring j).takeAndAnswer h .ok).signals
        = (s.completeFiring j).signals := rfl
    exact (hclosed.trans hanswered).trans (State.signals_of_frame (s.frame_completeFiring j))

theorem State.signals_setOrderTail (value : Nat) :
    (s.setOrderTail value).signals = s.signals := by
  unfold State.setOrderTail
  dsimp only
  split
  · split <;> rfl
  · rfl

/-- The firings that complete and the slots that take the halt neither issue nor flag anything. -/
theorem State.signals_beginStop (lossFirst : BitVec 32) :
    (s.beginStop lossFirst).signals = s.signals := by
  rw [s.beginStop_eq]
  have hcompleted := State.signals_of_frame (State.frame_completeFirings slotNumbers s)
  generalize slotNumbers.foldl State.completeFiring s = m at hcompleted ⊢
  have hhalted := State.halted_foldl (lossFirst := lossFirst) slotNumbers m.stopBegun
  exact (congrArg State.signals hhalted.frame).trans hcompleted

/-! ### Records, pages and results -/

/-- A record is written and may set DONE_READY and NOTICE (R132, R138, R140). -/
theorem State.writeRecord_last : SignalsLast s s.writeRecord := by
  unfold State.writeRecord
  split
  · exact .refl s
  next r rs _ =>
    dsimp only
    have hwritten : SignalsLast s ((({ s with post.queue := rs } : State).issueWrite .completion
        (s.run.copy.doneEntry s.post.tail) (r.bytes s.post.lap s.fetch.head)).advanceTail) :=
      ⟨⟨_, rfl⟩, fun _ => id⟩
    have hmoderated := hwritten.trans (State.moderate_last _)
    split
    · exact hmoderated.trans (State.setFlag_last _ _)
    · exact hmoderated

theorem State.storeResult_last (r : ScanResult) (p : OpenPage) :
    SignalsLast s (s.storeResult r p) := by
  rw [State.storeResult_eq]
  have hstored : SignalsLast s (s.afterStore r p s.pages.cache) := ⟨⟨_, rfl⟩, fun _ => id⟩
  exact hstored.trans (.of_frame (State.frame_afterResolved _ _))

theorem State.dropResult_last (r : ScanResult) : SignalsLast s (s.dropResult r) := by
  rw [State.dropResult_eq]
  have hdropped : SignalsLast s (s.afterDrop r) := .still rfl
  exact hdropped.trans (.of_frame (State.frame_afterResolved _ _))

theorem State.placeResult_last (r : ScanResult) : SignalsLast s (s.placeResult r) := by
  unfold State.placeResult
  split
  · split
    · exact s.storeResult_last r _
    · exact .still rfl
  next d ds _ _ =>
    exact .after_still (State.storeResult_last { s with pages.cache := ds } r d.openPage) rfl
  · exact s.dropResult_last r

/-- The header of the page is written once the stall, if any, has ended (R98). -/
theorem State.closePage_last (c : ClosingPage) : SignalsLast s (s.closePage i c) := by
  have hwritten : SignalsLast s.endStall (s.closePage i c) := ⟨⟨_, rfl⟩, fun _ => id⟩
  exact hwritten.after_still s.signals_endStall

/-! ### Run state transitions -/

theorem State.endStart_last (result : SetupResult) : SignalsLast s (s.endStart result) :=
  .after_still (State.setFlag_last _ _) rfl

theorem State.beginStart_last : SignalsLast s s.beginStart := by
  unfold State.beginStart
  dsimp only
  split
  · exact .after_still (State.endStart_last _ _) rfl
  · exact .still rfl

theorem State.enterRunning_last (c : SetupCopy) : SignalsLast s (s.enterRunning c) :=
  .still (State.signals_commitLines _ _ _)

theorem State.setupData_last (c : SetupCopy) : SignalsLast s (s.setupData c) := by
  unfold State.setupData
  split
  · exact s.endStart_last _
  · split
    · exact s.enterRunning_last c
    · exact s.endStart_last _

theorem State.enterFaulted_last (code : FaultCode) : SignalsLast s (s.enterFaulted code) :=
  .after_still (State.setFlag_last _ _) rfl

theorem State.writeRun1_last : SignalsLast s s.writeRun1 := by
  unfold State.writeRun1
  split
  · exact s.beginStart_last
  · exact .still rfl
  · exact .refl s
  · exact .refl s
  · exact s.refuseWrite_last

theorem State.writeRun0_last (lossFirst : BitVec 32) : SignalsLast s (s.writeRun0 lossFirst) := by
  unfold State.writeRun0
  split
  · exact .still rfl
  · exact .still rfl
  · exact .still (s.signals_beginStop lossFirst)
  · exact s.refuseWrite_last
  · exact .still (State.signals_commitLines _ _ _)

/-- A reset clears the flags, but takes back nothing that was issued (R154). -/
theorem State.resetByHost_issuedStands : IssuedStands s s.resetByHost := by
  have hblocks : IssuedStands s s.resetBlocks := ⟨[], (List.append_nil _).symm⟩
  unfold State.resetByHost
  split
  · exact hblocks.trans (SignalsLast.still (State.signals_commitLines _ _ _)).issued
  · exact hblocks

theorem State.resetByPower_issuedStands : IssuedStands s s.resetByPower :=
  ⟨[], (congrArg Prod.fst (State.signals_commitLines _ _ _)).trans (List.append_nil _).symm⟩

/-! ### The register window -/

theorem State.writeEventMask_last (value : BitVec 32) : SignalsLast s (s.writeEventMask value) :=
  s.withEvents_last fun _ => id

theorem State.writeOrderTail_last (value : BitVec 32) : SignalsLast s (s.writeOrderTail value) := by
  unfold State.writeOrderTail
  split
  · exact s.refuseWrite_last
  · exact .still rfl
  · exact .still (s.signals_setOrderTail _)

theorem State.writePoolTail_last (value : BitVec 32) : SignalsLast s (s.writePoolTail value) := by
  unfold State.writePoolTail
  split
  · exact s.refuseWrite_last
  · exact .still rfl
  · exact .still rfl

theorem State.writeDoneHead_last (value : BitVec 32) : SignalsLast s (s.writeDoneHead value) := by
  unfold State.writeDoneHead
  split
  · exact s.refuseWrite_last
  · exact .still rfl
  · split
    · exact .still rfl
    · exact s.refuseWrite_last

theorem State.writeControl_issuedStands (value : BitVec 32) :
    IssuedStands s (s.writeControl value) := by
  unfold State.writeControl
  split
  · exact s.resetByHost_issuedStands
  · split
    · exact s.writeRun1_last.issued
    · exact (s.writeRun0_last 0).issued

/-- A write that is neither to CONTROL nor to EVENTS, or that is refused for its shape, clears no flag
(R140, R156). -/
theorem State.writeWindow_last {offset : BitVec 6} {width : AccessWidth} (value : BitVec 32)
    (h : wellShaped offset width = true → offset ≠ offControl ∧ offset ≠ offEvents) :
    SignalsLast s (s.writeWindow offset width value) := by
  unfold State.writeWindow
  split
  · exact s.refuseWrite_last
  next hshape =>
    obtain ⟨hcontrol, hevents⟩ := h (by simpa using hshape)
    rw [if_neg (mt eq_of_beq hcontrol), if_neg (mt eq_of_beq hevents)]
    split
    · exact s.writeEventMask_last value
    split
    · exact .still rfl
    split
    · exact .still rfl
    split
    · exact s.writeOrderTail_last value
    split
    · exact s.writePoolTail_last value
    split
    · exact s.writeDoneHead_last value
    · exact s.refuseWrite_last

theorem State.writeWindow_issuedStands (offset : BitVec 6) (width : AccessWidth)
    (value : BitVec 32) : IssuedStands s (s.writeWindow offset width value) := by
  by_cases hshape : wellShaped offset width = true
  · by_cases hcontrol : offset = offControl
    · rw [State.writeWindow, hshape, hcontrol]
      exact s.writeControl_issuedStands value
    by_cases hevents : offset = offEvents
    · rw [State.writeWindow, hshape, hevents]
      exact s.withEvents_issuedStands _
    · exact (s.writeWindow_last value fun _ => ⟨hcontrol, hevents⟩).issued
  · exact (s.writeWindow_last value fun hs => absurd hs hshape).issued

/-- A well-formed REGISTER_WRITE is to no register with a row of its own (R156). -/
theorem registerWrite_not_own_row {offset : BitVec 6} {width : AccessWidth}
    (h : registerWriteWellFormed offset width = true) (hshape : wellShaped offset width = true) :
    offset ≠ offControl ∧ offset ≠ offEvents := by
  rw [wellShaped, Bool.and_eq_true, beq_iff_eq] at hshape
  obtain ⟨rfl, -⟩ := hshape
  constructor
  · rintro rfl; revert h; decide
  · rintro rfl; revert h; decide

end

/-! ### Every command -/

section
variable {s : State} {i : Fin 32}

theorem rawLevelChange_lasting (k : Fin 16) (level sameMoment : Bool) :
    CompletesLasting s (execRawLevelChange k level sameMoment s) := by
  unfold execRawLevelChange
  dsimp only
  split
  · exact .same
  · split
    · exact .still rfl
    · exact .still (s.signals_commitLines _ _)

theorem armExpiry_lasting : CompletesLasting s (execArmExpiry i s) := by
  refine .whenever_frame ?_
  split
  · exact s.frame_fire i _ _ _
  · exact s.frame_closeSlot i _ _

theorem firingCompletion_lasting : CompletesLasting s (execFiringCompletion i s) := by
  unfold execFiringCompletion
  split
  · exact .next (.of_frame (s.frame_returnToWatch i))
  · exact .whenever_still rfl

theorem entrySettled_lasting : CompletesLasting s (execEntrySettled s) := by
  unfold execEntrySettled; split <;> exact .still rfl

theorem conversionDone_lasting (nanovolts : Int) :
    CompletesLasting s (execConversionDone nanovolts s) := by
  unfold execConversionDone
  split
  · exact .same
  · exact .still (by split <;> rfl)

theorem resultTaken_lasting : CompletesLasting s (execResultTaken s) := by
  unfold execResultTaken
  split
  · exact .same
  · exact .next (s.placeResult_last _)

theorem pageCloseRequest_lasting : CompletesLasting s (execPageCloseRequest i s) := by
  unfold execPageCloseRequest
  split
  · exact .still rfl
  · exact .whenever_still rfl

theorem flushExpiry_lasting : CompletesLasting s (execFlushExpiry i s) := by
  unfold execFlushExpiry; split <;> exact .still rfl

theorem pageClose_lasting : CompletesLasting s (execPageClose i s) := by
  unfold execPageClose
  split
  · exact .same
  · exact .next (s.closePage_last i _)

theorem unusedReturn_lasting : CompletesLasting s (execUnusedReturn s) := by
  unfold execUnusedReturn
  split
  · exact .same
  · exact .whenever_still rfl

theorem orderReadData_lasting (tag : Nat) (data : BitVec 512) :
    CompletesLasting s (execOrderReadData tag data s) := by
  unfold execOrderReadData
  split
  · exact .same
  · split
    · exact .still (by split <;> rfl)
    · exact .still rfl

theorem cancel_lasting : CompletesLasting s (execCancel s) := by
  unfold execCancel
  split
  · exact .same
  · exact .still (s.signals_takeCancel _)

theorem lines_lasting : CompletesLasting s (execLines s) := by
  unfold execLines
  split
  · exact .same
  · exact .still (State.signals_commitLines _ _ _)

theorem fence_lasting : CompletesLasting s (execFence s) := by
  unfold execFence
  split
  · exact .same
  · exact .still (State.signals_fenceIfEmpty _)

theorem badOrder_lasting : CompletesLasting s (execBadOrder s) := by
  unfold execBadOrder; split <;> exact .still rfl

theorem fenceDoneTaken_lasting : CompletesLasting s (execFenceDoneTaken s) := by
  unfold execFenceDoneTaken; split <;> exact .still rfl

theorem stopComplete_lasting : CompletesLasting s (execStopComplete s) := by
  have hstopped : SignalsLast s { s with run.runState := .stopped, link.undelivered := [] } :=
    .still rfl
  exact .whenever ((hstopped.trans (State.flushModeration_last _)).trans (State.setFlag_last _ _))

theorem faults_lasting {ready : Bool} (code : FaultCode) :
    CompletesLasting s (s.whenever ready (s.enterFaulted code)) :=
  .whenever (s.enterFaulted_last code)

theorem completionTimeout_lasting (tag : Nat) :
    CompletesLasting s (execCompletionTimeout tag s) := by
  unfold execCompletionTimeout
  split
  · exact .next (s.endStart_last _)
  · split
    · exact .next (s.enterFaulted_last _)
    · exact faults_lasting _

/-- The command is well formed and neither a write to EVENTS nor a reset: the rest clear no flag
(R140). -/
def ClearsNoFlag (c : Instr) : Prop :=
  c.wellFormed = true ∧ (∀ width value, c ≠ .eventsWrite width value) ∧ c ≠ .hostReset
    ∧ c ≠ .powerOnReset ∧ c ≠ .linkReset

/-- Every command that may clear no flag completes, and what was issued and flagged lasts. -/
theorem exec_lasting {c : Instr} (h : ClearsNoFlag c) : CompletesLasting s (exec c s) := by
  obtain ⟨hwell, hevents, hhost, hpower, hlink⟩ := h
  cases c with
  | rawLevelChange k level sameMoment => exact rawLevelChange_lasting k level sameMoment
  | qualificationTimerExpiry k sameMoment => exact .whenever_still (s.signals_commitLines _ _)
  | lineEventTaken i => exact .whenever_frame (s.frame_takeLineEvent i)
  | holdExpiry i => exact .whenever_frame (s.frame_fire i _ _ _)
  | armExpiry i => exact armExpiry_lasting
  | delayExpiry i => exact .whenever_frame (s.frame_fire i _ _ _)
  | gateOpening i => exact .whenever_frame (s.frame_enterWatch i _)
  | gateLoss i => exact .whenever_frame (s.frame_closeSlot i _ _)
  | firedRecordTaken i => exact .whenever_still (s.signals_takeFired i)
  | firingCompletion i => exact firingCompletion_lasting
  | orderDoneTaken i => exact .whenever_still (State.signals_fenceIfEmpty _)
  | intervalTimerExpiry i => exact .whenever_frame (State.frame_scanDue _ i)
  | grant => exact .whenever_still s.signals_grantHead
  | entrySettled => exact entrySettled_lasting
  | conversionDone nanovolts => exact conversionDone_lasting nanovolts
  | poolReadIssue => exact .whenever_still rfl
  | poolReadData tag data => exact .whenever_still (s.signals_poolData _)
  | resultTaken => exact resultTaken_lasting
  | pageCloseRequest i => exact pageCloseRequest_lasting
  | flushExpiry i => exact flushExpiry_lasting
  | pageClose i => exact pageClose_lasting
  | unusedReturn => exact unusedReturn_lasting
  | noticeTaken => exact .whenever_still s.signals_takeNotice
  | recordWrite => exact .whenever s.writeRecord_last
  | moderationTimerExpiry => exact .whenever s.signalDone_last
  | orderReadIssue => exact .whenever_still rfl
  | orderReadData tag data => exact orderReadData_lasting tag data
  | arm => exact .whenever_still s.signals_takeSlotOrder
  | sample => exact .whenever_still s.signals_takeSlotOrder
  | cancel => exact cancel_lasting
  | lines => exact lines_lasting
  | fence => exact fence_lasting
  | badOrder => exact badOrder_lasting
  | fenceLimitExpiry => exact .whenever_still rfl
  | fenceDoneTaken => exact fenceDoneTaken_lasting
  | runWritten1 => exact .next s.writeRun1_last
  | runWritten0 lossFirst => exact .next (s.writeRun0_last lossFirst)
  | hostReset => exact absurd rfl hhost
  | eventsWrite width value => exact absurd rfl (hevents width value)
  | eventMaskWrite width value => exact .next (s.writeWindow_last value fun _ => by decide)
  | orderTailWrite value => exact .next (s.writeOrderTail_last value)
  | poolTailWrite value => exact .next (s.writePoolTail_last value)
  | doneHeadWrite value => exact .next (s.writeDoneHead_last value)
  | registerWrite offset width value =>
    exact .next (s.writeWindow_last value (registerWrite_not_own_row hwell))
  | setupReadData tag data => exact .whenever (s.setupData_last _)
  | setupReadError tag => exact .whenever (s.endStart_last _)
  | stopComplete => exact stopComplete_lasting
  | fetchError tag => exact faults_lasting _
  | poolError tag => exact faults_lasting _
  | pageError => exact faults_lasting _
  | postError => exact faults_lasting _
  | completionTimeout tag => exact completionTimeout_lasting tag
  | linkDown => exact faults_lasting _
  | powerOnReset => exact absurd rfl hpower
  | linkReset => exact absurd rfl hlink
  | configurationSpaceWrite busMaster msi => exact .still rfl

/-- The commands that may clear a flag. -/
theorem cases_of_not_clearsNoFlag {c : Instr} (h : ¬ ClearsNoFlag c) :
    (∃ offset width value, c = .registerWrite offset width value)
      ∨ (∃ width value, c = .eventsWrite width value)
      ∨ c = .hostReset ∨ c = .powerOnReset ∨ c = .linkReset := by
  contrapose! h
  obtain ⟨hwrite, hevents, hhost, hpower, hlink⟩ := h
  refine ⟨?_, hevents, hhost, hpower, hlink⟩
  cases c with
  | registerWrite offset width value => exact absurd rfl (hwrite offset width value)
  | _ => rfl

/-- No command takes back what was issued, those that may clear a flag included (R104, R132). -/
theorem exec_standing (c : Instr) : CompletesStanding s (exec c s) := by
  by_cases h : ClearsNoFlag c
  · exact (exec_lasting h).standing
  · rcases cases_of_not_clearsNoFlag h with
      ⟨offset, width, value, rfl⟩ | ⟨width, value, rfl⟩ | rfl | rfl | rfl
    · exact ⟨_, rfl, s.writeWindow_issuedStands offset width value⟩
    · exact ⟨_, rfl, s.writeWindow_issuedStands offEvents width value⟩
    · exact ⟨_, rfl, s.resetByHost_issuedStands⟩
    · exact ⟨_, rfl, s.resetByPower_issuedStands⟩
    · exact ⟨_, rfl, s.resetByPower_issuedStands⟩

end

/-- Settles O60: what is issued stands after every command, and flags last through those that clear
none. -/
theorem issuedWritesStandAndFlagsLast : Obligations.IssuedWritesStandAndFlagsLast := by
  intro c s
  obtain ⟨t, hnext, hissued⟩ := exec_standing (s := s) c
  refine ⟨t, hnext, hissued, fun hwell hevents hhost hpower hlink => ?_⟩
  obtain ⟨u, hu, hlast⟩ := exec_lasting (s := s) ⟨hwell, hevents, hhost, hpower, hlink⟩
  obtain rfl : t = u := Host.Outcome.next.inj (hnext.symm.trans hu)
  exact hlast.flags

end Sys2Proof.Machine
end

/-! ## The data of an order read (O29) -/

section
namespace Sys2Proof.Machine

variable (s : State)

/-- Data under the tag of the order read answers it while the run is live (R111, R124). -/
theorem State.orderAnswered_eq_some {tag : Nat} {r : OrderRead} (hlive : s.Live)
    (hread : s.fetch.read = some r) (htag : r.read.tag = tag) (hrefused : r.read.refused = false) :
    s.orderAnswered tag = some r := by
  simp [State.orderAnswered, s.isLive_iff.2 hlive, hread, Option.filter, BusRead.answeredBy, htag,
    hrefused]

/-- What the data of the order read in flight does, by run state and withdrawal. -/
theorem exec_orderReadData {tag : Nat} {data : BitVec 512} {r : OrderRead} (hlive : s.Live)
    (hread : s.fetch.read = some r) (htag : r.read.tag = tag) (hrefused : r.read.refused = false) :
    exec (.orderReadData tag data) s = .next
      (if s.run.runState = .running then
        if r.withdrawn then { s with fetch.read := none, fetch.state := .idle } else s.holdOrder data
      else { s with fetch.read := none }) := by
  show execOrderReadData tag data s = _
  rw [execOrderReadData, s.orderAnswered_eq_some hlive hread htag hrefused]
  by_cases hrun : s.run.runState = .running
  · rw [if_pos hrun]; exact if_pos (s.isRunning_iff.2 hrun)
  · rw [if_neg hrun]; exact if_neg (mt s.isRunning_iff.1 hrun)

/-- Settles O29, by run state and withdrawal. -/
theorem orderDataIsHeldOrDiscarded : Obligations.OrderDataIsHeldOrDiscarded := by
  intro s tag data r hread htag hrefused
  refine ⟨fun hrun hstays => ?held, fun hrun hwithdrawn => ?withdrawn, fun hstop => ?stopping⟩
  case held =>
    rw [exec_orderReadData s (.inl hrun) hread htag hrefused, if_pos hrun, hstays]
    rfl
  case withdrawn =>
    rw [exec_orderReadData s (.inl hrun) hread htag hrefused, if_pos hrun, hwithdrawn]
    rfl
  case stopping =>
    have hrun : s.run.runState ≠ .running := by rw [hstop]; decide
    rw [exec_orderReadData s (.inr hstop) hread htag hrefused, if_neg hrun]

end Sys2Proof.Machine
end

/-! ## The validation of an order (O30) -/

section
namespace Sys2Proof.Machine

/-! ### The first failed check -/

/-- The code of the first check of a list that fails, 0 when none does. -/
def firstFailed (checks : List (Bool × BitVec 4)) : BitVec 4 :=
  ((checks.find? Prod.fst).map Prod.snd).getD 0

theorem validate_eq_firstFailed (channels : Vector Channel 12) (o : OrderImage) :
    validate channels o = firstFailed (validationChecks channels o) := rfl

/-- The first check gives its code when it fails, and the later ones count only when it does not
(R113). -/
theorem firstFailed_cons {failed : Bool} {code later : BitVec 4} {checks : List (Bool × BitVec 4)}
    {p : Prop} [Decidable p] (hfirst : failed = true ↔ p)
    (hlater : ¬ p → firstFailed checks = later) :
    firstFailed ((failed, code) :: checks) = if p then code else later := by
  by_cases h : p
  · rw [if_pos h, hfirst.2 h]
    rfl
  · rw [if_neg h, ← hlater h, Bool.eq_false_iff.2 (mt hfirst.1 h)]
    rfl

/-! ### Two-byte fields -/

/-- A field of two bytes is 0 when both are (R160). -/
theorem recordField_two_eq_zero {n : Nat} (record : BitVec n) (k : Nat) :
    recordField record k 16 = 0 ↔ byteOf record k = 0 ∧ byteOf record (k + 1) = 0 := by
  rw [recordField_two, ← toNat_eq_zero, ← toNat_eq_zero (byteOf record k),
    ← toNat_eq_zero (byteOf record (k + 1)), BitVec.toNat_append, Nat.or_eq_zero_iff,
    Nat.shiftLeft_eq_zero_iff]
  omega

/-! ### The ten checks of Table 6-3 -/

/-- The kind byte is that of an ARM or of a SAMPLE (Table 9-5). -/
def OrderImage.NeedsSlot (o : OrderImage) : Prop :=
  (byteOf o 0x00).toNat = 1 ∨ (byteOf o 0x00).toNat = 2

section
variable (o : OrderImage)

theorem OrderImage.kind_eq_iff (kind : Byte) :
    o.kind = kind ↔ (byteOf o 0x00).toNat = kind.toNat := BitVec.toNat_inj.symm

theorem OrderImage.takesSlot_iff : o.takesSlot = true ↔ o.NeedsSlot := by
  rw [OrderImage.takesSlot, Bool.or_eq_true, beq_iff_eq, beq_iff_eq, o.kind_eq_iff, o.kind_eq_iff]
  rfl

theorem OrderImage.unknownKind_iff :
    o.unknownKind = true ↔ (byteOf o 0x00).toNat = 0 ∨ 5 < (byteOf o 0x00).toNat := by
  rw [OrderImage.unknownKind, Bool.or_eq_true, beq_iff_eq, decide_eq_true_iff, o.kind_eq_iff]
  rfl

theorem OrderImage.badPriority_iff :
    o.badPriority = true ↔ o.NeedsSlot ∧ 3 < (byteOf o 0x04).toNat := by
  rw [OrderImage.badPriority, Bool.and_eq_true, o.takesSlot_iff, decide_eq_true_iff]
  rfl

/-- The bits above bit 2 name no flag (Table 9-5). -/
theorem unnamed_flags_iff (flags : Byte) : flags &&& 0xF8 ≠ 0 ↔ flags.toNat ≥ 8 := by
  revert flags; decide

theorem OrderImage.badFlags_iff :
    o.badFlags = true ↔ (byteOf o 0x01).toNat ≥ 8
      ∨ ((byteOf o 0x00).toNat = 2
        ∧ ((byteOf o 0x01).getLsbD 1 = true ∨ (byteOf o 0x01).getLsbD 2 = true))
      ∨ (¬ o.NeedsSlot ∧ byteOf o 0x01 ≠ 0) := by
  have hsample : o.kind = kindSample ↔ (byteOf o 0x00).toNat = 2 := o.kind_eq_iff kindSample
  rw [← unnamed_flags_iff, ← o.takesSlot_iff, ← hsample, Bool.not_eq_true]
  simp only [OrderImage.badFlags, Bool.or_eq_true, Bool.and_eq_true, beq_iff_eq, bne_iff_ne,
    Bool.not_eq_true']
  rw [or_comm, or_comm (a := o.gated = true)]
  rfl

theorem OrderImage.emptyMask_iff :
    o.emptyMask = true ↔ ((byteOf o 0x00).toNat = 1 ∨ (byteOf o 0x00).toNat = 4)
      ∧ byteOf o 0x08 = 0 ∧ byteOf o 0x09 = 0 := by
  have hmask : o.mask = 0 ↔ byteOf o 0x08 = 0 ∧ byteOf o 0x09 = 0 := recordField_two_eq_zero o 8
  have hlines : o.lineMask = 0 ↔ byteOf o 0x08 = 0 ∧ byteOf o 0x09 = 0 := recordField_two_eq_zero o 8
  simp only [OrderImage.emptyMask, Bool.or_eq_true, Bool.and_eq_true, beq_iff_eq, hmask, hlines,
    ← or_and_right, o.kind_eq_iff]
  rfl

theorem OrderImage.badEntryCount_iff :
    o.badEntryCount = true ↔
      o.NeedsSlot ∧ (byteOf o 0x16 = 0 ∨ 8 < (byteOf o 0x16).toNat) := by
  rw [OrderImage.badEntryCount, Bool.and_eq_true, o.takesSlot_iff, Bool.or_eq_true, beq_iff_eq,
    decide_eq_true_iff]
  rfl

/-- A check of the entries of an ARM or a SAMPLE whose entry count passed check 5: only the entries
within the count are looked at (R113), and an order has room for eight (Table 9-3). -/
theorem OrderImage.entryCheck_iff {p : Nat → Bool} {fails : Nat → Prop}
    (hcount : ¬ (o.NeedsSlot ∧ (byteOf o 0x16 = 0 ∨ 8 < (byteOf o 0x16).toNat)))
    (hp : o.NeedsSlot → ∀ k < 8, k < (byteOf o 0x16).toNat → (p k = true ↔ fails k)) :
    (o.takesSlot && o.entryPositions.any p) = true ↔
      o.NeedsSlot ∧ ∃ k < 8, k < (byteOf o 0x16).toNat ∧ fails k := by
  rw [Bool.and_eq_true, o.takesSlot_iff, OrderImage.entryPositions, List.any_eq_true]
  refine and_congr_right fun hneeds => exists_congr fun k => ?_
  have hle : (byteOf o 0x16).toNat ≤ 8 := Nat.not_lt.1 fun h => hcount ⟨hneeds, .inr h⟩
  rw [List.mem_range]
  constructor
  · exact fun ⟨hk, h⟩ =>
      have hk8 := Nat.lt_of_lt_of_le hk hle
      ⟨hk8, hk, (hp hneeds k hk8 hk).1 h⟩
  · exact fun ⟨hk8, hk, h⟩ => ⟨hk, (hp hneeds k hk8 hk).2 h⟩

/-- A channel that exists is off when the channel table has it disabled (Table 6-3, check 7). -/
theorem channel_off_iff (channels : Vector Channel 12) {n : Nat} (h : n ≤ 11) :
    (!channels[Fin.ofNat 12 n].enabled) = true ↔
      ∃ c : Fin 12, c.val = n ∧ channels[c].enabled = false := by
  rw [Bool.not_eq_true']
  have hval : (Fin.ofNat 12 n).val = n := Nat.mod_eq_of_lt (Nat.lt_succ_of_le h)
  refine ⟨fun hoff => ⟨_, hval, hoff⟩, fun ⟨c, hc, hoff⟩ => ?_⟩
  obtain rfl : c = Fin.ofNat 12 n := Fin.ext (hc.trans hval.symm)
  exact hoff

theorem averaging_bad_iff (averaging : Byte) :
    (!([1, 2, 4, 8].contains averaging.toNat)) = true ↔ averaging.toNat ∉ [1, 2, 4, 8] := by
  rw [Bool.not_eq_true', ← Bool.not_eq_true, List.contains_iff_mem]

theorem OrderImage.continuousRearm_iff :
    o.continuousRearm = true ↔
      o.NeedsSlot ∧ byteOf o 0x14 = 0 ∧ byteOf o 0x15 = 0 ∧ byteOf o 0x0D ≠ 0 := by
  have hcount : o.scanCount = 0 ↔ byteOf o 0x14 = 0 ∧ byteOf o 0x15 = 0 :=
    recordField_two_eq_zero o 0x14
  simp only [OrderImage.continuousRearm, Bool.and_eq_true, o.takesSlot_iff, beq_iff_eq, bne_iff_ne,
    hcount, and_assoc]
  rfl

theorem OrderImage.sampleRearm_iff :
    o.sampleRearm = true ↔ (byteOf o 0x00).toNat = 2 ∧ byteOf o 0x0D ≠ 0 := by
  rw [OrderImage.sampleRearm, Bool.and_eq_true, beq_iff_eq, bne_iff_ne, o.kind_eq_iff]
  rfl

end

/-- Settles O30: check by check, each read from the bytes, those of the entries under the checks before
them. -/
theorem validationNamesFirstFailedCheck : Obligations.ValidationNamesFirstFailedCheck := by
  intro channels o kind takesSlot inCount channel
  rw [validate_eq_firstFailed]
  refine firstFailed_cons o.unknownKind_iff fun _ => firstFailed_cons o.badPriority_iff fun _ =>
    firstFailed_cons o.badFlags_iff fun _ => firstFailed_cons o.emptyMask_iff fun _ =>
    firstFailed_cons o.badEntryCount_iff fun hcount => firstFailed_cons ?channel fun hchannel =>
    firstFailed_cons ?off fun _ => firstFailed_cons ?average fun _ =>
    firstFailed_cons o.continuousRearm_iff fun _ => firstFailed_cons o.sampleRearm_iff fun _ => rfl
  case channel => exact o.entryCheck_iff hcount fun _ _ _ _ => decide_eq_true_iff
  case off =>
    refine o.entryCheck_iff hcount fun hneeds k hk hin => channel_off_iff channels ?_
    exact Nat.not_lt.1 fun hbig => hchannel ⟨hneeds, k, hk, hin, hbig⟩
  case average => exact o.entryCheck_iff hcount fun _ _ _ _ => averaging_bad_iff _

end Sys2Proof.Machine
end

/-! ## FENCE orders and invalid orders (O35, O36) -/

section
namespace Sys2Proof.Machine

variable (s : State) {h : HeldOrder} {f : Fence}

/-! ### The taking of a FENCE (R121) -/

/-- The state in which a FENCE has been taken and looks at the slots for the first time (R121). -/
def State.withFence (s : State) (f : Fence) : State :=
  { s.afterTaking with fetch.state := .fenced, fetch.fence := some f }

/-- A held valid FENCE is taken with no look at the Post Queue (Table 6-5). -/
theorem exec_fence (hm : s.MayTake h) (hd : h.detail = 0) (hkind : h.image.kind = 5) :
    exec .fence s = .next (s.withFence (s.newFence h)).fenceIfEmpty := by
  obtain ⟨hrun, hstate, hheld, htail⟩ := hm
  have hvalid : h.isValid kindFence = true := (h.isValid_iff kindFence).2 ⟨hd, hkind⟩
  have htake : s.takeableFence = some h := by
    simp [State.takeableFence, s.mayTake_iff.2 ⟨hrun, hstate, htail⟩, hheld, Option.filter, hvalid]
  show execFence s = _
  rw [execFence, htake]
  rfl

theorem State.newFence_eq :
    s.newFence h =
      { tag := h.image.tag
        orderNumber := s.run.orderNumber + 1
        limit := h.image.fenceLimit
        timer := if h.image.fenceLimit = 0 then none else some 0
        outcome := none } := by
  simp only [State.newFence, State.nextOrderNumber, beq_iff_eq]

/-! ### The outcome and the answer of a FENCE (R121) -/

theorem Fence.takes_of_no_outcome (hnone : f.outcome = none) (status : Status) (time : Timestamp) :
    f.takes status time = { f with timer := none, outcome := some (status, time) } := by
  rw [Fence.takes, if_pos hnone]

theorem exec_fenceLimitExpiry {n : Nat} (hlive : s.Live) (hfence : s.fetch.fence = some f)
    (hnone : f.outcome = none) (htimer : f.timer = some n) (hreached : f.limit.toNat * 1000 ≤ n) :
    exec .fenceLimitExpiry s = .next (s.settleFence .timedOut) := by
  have hexpired : f.expired = true := by
    rw [Fence.expired, hnone, htimer]; exact decide_eq_true hreached
  exact s.whenever_true _ (by rw [s.isLive_iff.2 hlive, hfence]; exact hexpired)

theorem exec_fenceDoneTaken {r : CompletionRecord} (hlive : s.Live) (hroom : s.HasRoom)
    (hfence : s.fetch.fence = some f) (hrecord : f.record = some r) :
    exec .fenceDoneTaken s =
      .next (({ s with
                fetch.fence := none
                fetch.state := if s.run.runState = .running then .idle
                  else s.fetch.state } : State).posted r) := by
  have htake : s.fenceRecord = some r := by
    simp [State.fenceRecord, s.isLive_iff.2 hlive, s.postRoom_iff.2 hroom, hfence, hrecord]
  show execFenceDoneTaken s = _
  rw [execFenceDoneTaken, htake]
  simp only [s.isRunning_iff]
  rfl

/-- Settles O35: the taking by whether a slot is occupied, then the limit, then the answer. -/
theorem fenceWaitsForItsOutcome : Obligations.FenceWaitsForItsOutcome := by
  refine ⟨fun s h hm hd hkind => ?taking, fun s f n hlive hfence hnone htimer hreached => ?limit,
    fun s f status ended hlive hroom hfence houtcome => ?answer⟩
  case taking =>
    rw [exec_fence s hm hd hkind, s.newFence_eq]
    refine ⟨fun ⟨j, hj⟩ => ?waits, fun hfree => ?empty⟩
    case waits => exact congrArg _ (State.fenceIfEmpty_of_occupied _ j hj)
    case empty => exact congrArg _ (State.fenceIfEmpty_of_allFree _ hfree)
  case limit =>
    rw [exec_fenceLimitExpiry s hlive hfence hnone htimer hreached, State.settleFence, hfence,
      Option.map_some, Fence.settle_takes, Fence.takes_of_no_outcome hnone]
  case answer =>
    exact exec_fenceDoneTaken s hlive hroom hfence (by rw [Fence.record, houtcome]; rfl)

/-! ### Invalid orders (R117) -/

/-- Settles O36: an invalid order is taken by the one command for it. -/
theorem invalidOrderIsAnswered : Obligations.InvalidOrderIsAnswered := by
  intro s h hm hroom hd
  have htake : s.takeable (fun o => o.detail != 0) = some h :=
    s.takeable_eq_some hm hroom (bne_iff_ne.2 hd)
  show execBadOrder s = _
  rw [execBadOrder, htake]
  exact congrArg _ (s.takeAndAnswer_answered h .badOrder)

end Sys2Proof.Machine
end

/-! ## Writes to ORDER_TAIL and POOL_TAIL (O42) -/

section
namespace Sys2Proof.Machine

variable (s : State)

/-! ### The verdict of Table 8-10 -/

/-- What a write to a host index register leaves: the refusal, `zero` for the 0 accepted in STARTING, or
`taken` for a value within the ring (Table 8-10). -/
def State.judged (value size : Nat) (zero taken : State) : State :=
  match s.judgeIndex value size with
  | .refused => s.refuseWrite
  | .stays => zero
  | .inRange => taken

theorem exec_orderTailWrite (value : BitVec 32) :
    exec (.orderTailWrite value) s =
      .next (s.judged value.toNat s.run.copy.orderSize.toNat { s with window.orderTail := 0 }
        (s.setOrderTail value.toNat)) := rfl

theorem exec_poolTailWrite (value : BitVec 32) :
    exec (.poolTailWrite value) s =
      .next (s.judged value.toNat s.run.copy.poolSize.toNat { s with window.poolTail := 0 }
        { s with window.poolTail := value.toNat }) := rfl

section
variable {s} {value size : Nat} {zero taken : State}

theorem State.judged_of_no_run (h : s.run.runState = .stopped ∨ s.run.runState = .faulted) :
    s.judged value size zero taken = s.flagged 4 := by
  rw [← s.refuseWrite_flagged]
  rcases h with h | h <;> simp only [State.judged, State.judgeIndex, h]

theorem State.judged_of_starting (h : s.run.runState = .starting) :
    s.judged value size zero taken = if value = 0 then zero else s.flagged 4 := by
  rw [← s.refuseWrite_flagged]
  by_cases hv : value = 0 <;> simp [State.judged, State.judgeIndex, h, hv]

theorem State.judged_of_live (h : s.Live) :
    s.judged value size zero taken = if value < size then taken else s.flagged 4 := by
  have hjudge : s.judgeIndex value size = if value < size then .inRange else .refused := by
    rcases h with h | h <;> rw [State.judgeIndex, h]
  rw [← s.refuseWrite_flagged, State.judged, hjudge]
  by_cases hv : value < size
  · rw [if_pos hv, if_pos hv]
  · rw [if_neg hv, if_neg hv]

end

/-! ### The withdrawal of the entry at the head (R112) -/

section
variable {value : Nat}

/-- An entry being read is withdrawn (R112). -/
theorem State.setOrderTail_reading (hhead : value = s.fetch.head) (h : s.fetch.state = .reading) :
    s.setOrderTail value =
      { s with
        window.orderTail := value
        fetch.read := s.fetch.read.map fun r => { r with withdrawn := true } } := by
  simp only [State.setOrderTail, beq_iff_eq.2 hhead, h, if_true]

/-- A held entry is dropped (R112). -/
theorem State.setOrderTail_holding (hhead : value = s.fetch.head) (h : s.fetch.state = .holding) :
    s.setOrderTail value =
      { s with window.orderTail := value, fetch.held := none, fetch.state := .idle } := by
  simp only [State.setOrderTail, beq_iff_eq.2 hhead, h, if_true]

/-- Away from the head, or with no entry read or held, nothing is withdrawn (R112). -/
theorem State.setOrderTail_no_withdrawal (h : value ≠ s.fetch.head
    ∨ (s.fetch.state ≠ .reading ∧ s.fetch.state ≠ .holding)) :
    s.setOrderTail value = { s with window.orderTail := value } := by
  unfold State.setOrderTail
  dsimp only
  split
  next hhead =>
    obtain ⟨hreading, hholding⟩ := h.resolve_left (not_not.2 (beq_iff_eq.1 hhead))
    cases hstate : s.fetch.state with
    | reading => exact absurd hstate hreading
    | holding => exact absurd hstate hholding
    | off | idle | fenced => rfl
  · rfl

end

/-- Settles O42: the verdict by run state, and the withdrawal by the fetch state. -/
theorem tailWritesAreChecked : Obligations.TailWritesAreChecked := by
  intro s value v orderTail poolTail
  have horder := exec_orderTailWrite s value
  have hpool := exec_poolTailWrite s value
  refine ⟨fun hno => ?noRun, fun hstarting => ?starting, fun hlive => ?live⟩
  case noRun =>
    rw [State.judged_of_no_run hno] at horder hpool
    exact ⟨horder, hpool⟩
  case starting =>
    rw [State.judged_of_starting hstarting] at horder hpool
    refine ⟨fun hne => ?refused, fun hzero => ?zero⟩
    case refused =>
      rw [if_neg hne] at horder hpool
      exact ⟨horder, hpool⟩
    case zero =>
      rw [if_pos hzero] at horder hpool
      exact ⟨horder, hpool⟩
  case live =>
    rw [State.judged_of_live hlive] at horder hpool
    refine ⟨fun hge => ?_, fun hlt => ?_, fun hge => ?_, fun hlt => ?accepted⟩
    · rwa [if_neg (Nat.not_lt.2 hge)] at hpool
    · rwa [if_pos hlt] at hpool
    · rwa [if_neg (Nat.not_lt.2 hge)] at horder
    case accepted =>
      rw [if_pos hlt] at horder
      exact ⟨fun hhead hreading => horder.trans (congrArg _ (s.setOrderTail_reading hhead hreading)),
        fun hhead hholding => horder.trans (congrArg _ (s.setOrderTail_holding hhead hholding)),
        fun hstays => horder.trans (congrArg _ (s.setOrderTail_no_withdrawal hstays))⟩

end Sys2Proof.Machine
end

/-! ## Notices, record writes and moderation (O26, O27, O28) -/

section
namespace Sys2Proof.Machine

variable (s : State)

/-! ### The Notice Latch (R135) -/

section
variable {s} {n : NoticeRecord}

/-- With a record in the latch and room for it, the Post Queue takes the record that R135 puts first. -/
theorem exec_noticeTaken (hlive : s.Live) (hroom : s.HasRoom)
    (hlatched : s.post.dryNotice.isSome = true ∨ s.post.badNotice.isSome = true) :
    exec .noticeTaken s = .next s.takeNotice := by
  refine s.whenever_true _ ?_
  rw [State.canTakeNotice, s.isLive_iff.2 hlive, s.postRoom_iff.2 hroom, Bool.true_and,
    Bool.true_and, Bool.or_eq_true]
  exact hlatched

theorem State.takeNotice_of_dry (hdry : s.post.dryNotice = some n) :
    s.takeNotice = ({ s with post.dryNotice := none } : State).posted (.notice n) := by
  rw [State.takeNotice, hdry]; rfl

theorem State.takeNotice_of_bad (hdry : s.post.dryNotice = none) (hbad : s.post.badNotice = some n) :
    s.takeNotice = ({ s with post.badNotice := none } : State).posted (.notice n) := by
  rw [State.takeNotice, hdry, hbad]; rfl

end

/-- Settles O26, by what the latch holds. -/
theorem noticeLeavesLatchDryFirst : Obligations.NoticeLeavesLatchDryFirst := by
  intro s n hlive hroom
  refine ⟨fun hdry => ?dry, fun hdry hbad => ?bad⟩
  case dry =>
    have hlatched : s.post.dryNotice.isSome = true := by rw [hdry]; rfl
    rw [exec_noticeTaken hlive hroom (.inl hlatched), State.takeNotice_of_dry hdry]
  case bad =>
    have hlatched : s.post.badNotice.isSome = true := by rw [hbad]; rfl
    rw [exec_noticeTaken hlive hroom (.inr hlatched), State.takeNotice_of_bad hdry hbad]

/-! ### Moderation (R138) -/

theorem State.signalDone_flagged :
    s.signalDone = ({ s with post.gathered := 0, post.timer := none } : State).flagged 0 :=
  State.setFlag_doneReady _

/-- The next record write signals DONE_READY: there is no delay, or the count is reached (R138). -/
def State.SignalsNext (s : State) : Prop :=
  s.run.copy.moderationDelay = 0 ∨ s.post.gathered + 1 = s.run.copy.moderationCount.toNat

theorem State.moderate_of_signals (h : s.SignalsNext) :
    s.moderate = ({ s with post.gathered := 0, post.timer := none } : State).flagged 0 := by
  rw [← s.signalDone_flagged, State.moderate]
  exact if_pos (by rwa [Bool.or_eq_true, beq_iff_eq, beq_iff_eq])

/-- A record write that does not signal is counted, and the first of a gathering starts the timer
(R138). -/
theorem State.moderate_of_gathers (h : ¬ s.SignalsNext) :
    s.moderate =
      { s with
        post.gathered := s.post.gathered + 1
        post.timer := if s.post.gathered = 0 then some 0 else s.post.timer } := by
  have hgathers : ¬ (s.run.copy.moderationDelay == 0
      || s.post.gathered + 1 == s.run.copy.moderationCount.toNat) = true := by
    rwa [Bool.or_eq_true, beq_iff_eq, beq_iff_eq]
  rw [State.moderate, if_neg hgathers]
  simp only [beq_iff_eq]

/-- Settles O28: the timer at the delay is the condition of the expiry. -/
theorem moderationExpirySignals : Obligations.ModerationExpirySignals := by
  intro s n hlive htimer hreached
  rw [← s.signalDone_flagged]
  refine s.whenever_true _ ?_
  rw [State.canModerationExpire, s.isLive_iff.2 hlive, Bool.true_and, timerReached_iff]
  exact ⟨n, htimer, hreached⟩

/-! ### The Completion Ring (R128, R129, R132) -/

/-- The tail within the ring goes to the next entry, and the lap is inverted at the wrap (R128,
R129). -/
theorem State.advanceTail_of_lt (h : s.post.tail < s.run.copy.doneSize.toNat) :
    s.advanceTail =
      { s with
        post.tail := if s.post.tail + 1 = s.run.copy.doneSize.toNat then 0 else s.post.tail + 1
        post.lap := if s.post.tail + 1 = s.run.copy.doneSize.toNat then !s.post.lap
          else s.post.lap } := by
  unfold State.advanceTail
  by_cases hwraps : s.post.tail + 1 = s.run.copy.doneSize.toNat
  · simp [hwraps]
  · have hnext : (s.post.tail + 1) % s.run.copy.doneSize.toNat = s.post.tail + 1 :=
      Nat.mod_eq_of_lt (by omega)
    simp [hnext, hwraps]

/-- The record `r` has been issued to the entry at the tail, with `rest` still queued; the write is not
yet moderated (R129, R132). -/
def State.recordIssued (s : State) (r : CompletionRecord) (rest : List CompletionRecord) : State :=
  (({ s with post.queue := rest } : State).issueWrite .completion
    (s.run.copy.doneEntry s.post.tail) (r.bytes s.post.lap s.fetch.head)).advanceTail

section
variable {s} {r : CompletionRecord} {rest : List CompletionRecord}

theorem State.recordIssued_eq (htail : s.post.tail < s.run.copy.doneSize.toNat) :
    s.recordIssued r rest =
      { s with
        post.queue := rest
        post.tail := if s.post.tail + 1 = s.run.copy.doneSize.toNat then 0 else s.post.tail + 1
        post.lap := if s.post.tail + 1 = s.run.copy.doneSize.toNat then !s.post.lap else s.post.lap
        link.undelivered := s.undeliveredAfter .completion
        link.issued := s.link.issued ++
          [.memory (s.run.copy.doneBase + BitVec.ofNat 64 (32 * s.post.tail))
            (r.bytes s.post.lap s.fetch.head)] } :=
  State.advanceTail_of_lt _ htail

/-- With room in the ring the oldest record is issued, moderated and, when a NOTICE, flagged. -/
theorem exec_recordWrite (hlive : s.Live) (hqueue : s.post.queue = r :: rest)
    (hroom : s.unreleased + 1 < s.run.copy.doneSize.toNat) :
    exec .recordWrite s =
      .next (if r.isNotice then (s.recordIssued r rest).moderate.flagged 1
        else (s.recordIssued r rest).moderate) := by
  have hready : s.canWriteRecord = true := by
    rw [State.canWriteRecord, s.isLive_iff.2 hlive, hqueue]
    exact decide_eq_true hroom
  rw [← State.setFlag_notice]
  refine (s.whenever_true _ hready).trans (congrArg _ ?_)
  rw [State.writeRecord, hqueue]
  rfl

/-- In a full ring nothing is written (R133). -/
theorem exec_recordWrite_full (hfull : s.run.copy.doneSize.toNat ≤ s.unreleased + 1) :
    exec .recordWrite s = .next s := by
  have hroom : s.ringRoom = false := decide_eq_false (Nat.not_lt.2 hfull)
  exact s.whenever_false _ (by rw [State.canWriteRecord, hroom, Bool.and_false])

end

/-- Settles O27: the record issued, then moderation by whether it signals, then the NOTICE flag by the
kind of the record. -/
theorem recordWriteAdvancesTailAndLap : Obligations.RecordWriteAdvancesTailAndLap := by
  intro s r rest size unreleased wraps signals hlive hqueue htail
  refine ⟨fun hroom => ?written, fun hfull => exec_recordWrite_full hfull⟩
  case written =>
    intro written signalled
    have hmoderated : (s.recordIssued r rest).moderate = signalled := by
      by_cases hsignals : signals
      · have h : (s.recordIssued r rest).SignalsNext := hsignals
        rw [State.moderate_of_signals _ h, State.recordIssued_eq htail]
        simp only [signalled, written, if_pos hsignals]
        rfl
      · have h : ¬ (s.recordIssued r rest).SignalsNext := hsignals
        rw [State.moderate_of_gathers _ h, State.recordIssued_eq htail]
        simp only [signalled, written, if_neg hsignals]
        rfl
    have hexec := exec_recordWrite hlive hqueue hroom
    rw [hmoderated] at hexec
    cases r <;> exact hexec

end Sys2Proof.Machine
end

/-! ## Writes to EVENTS and EVENT_MASK (O41) -/

section
namespace Sys2Proof.Machine

variable (s : State) (value : BitVec 32)

theorem State.writeWindow_of_not_wellShaped {offset : BitVec 6} {width : AccessWidth}
    (h : wellShaped offset width = false) : s.writeWindow offset width value = s.flagged 4 := by
  rw [State.writeWindow, h]; exact s.refuseWrite_flagged

theorem State.writeWindow_of_width_ne (offset : BitVec 6) {width : AccessWidth}
    (h : width ≠ .bits32) : s.writeWindow offset width value = s.flagged 4 :=
  s.writeWindow_of_not_wellShaped value (by rw [wellShaped, beq_false_of_ne h, Bool.false_and])

theorem State.writeWindow_events : s.writeWindow offEvents .bits32 value = s.writeEvents value := rfl

theorem State.writeWindow_eventMask :
    s.writeWindow offEventMask .bits32 value = s.writeEventMask value := rfl

/-- Settles O41, by the width of the access. -/
theorem eventWritesClearAndEnable : Obligations.EventWritesClearAndEnable := by
  intro s width value
  refine ⟨fun hwidth => ?stored, fun hwidth => ?refused⟩
  case stored =>
    subst hwidth
    exact ⟨congrArg _ ((s.writeWindow_events value).trans (s.withEvents_eventsBecome _)),
      congrArg _ ((s.writeWindow_eventMask value).trans (s.withEvents_eventsBecome _))⟩
  case refused =>
    exact ⟨congrArg _ (s.writeWindow_of_width_ne value offEvents hwidth),
      congrArg _ (s.writeWindow_of_width_ne value offEventMask hwidth)⟩

end Sys2Proof.Machine
end

/-! ## Writes to DONE_HEAD (O43) -/

section
namespace Sys2Proof.Machine

variable (s : State) (value : BitVec 32)

/-- The new head lies at most as far from the old one as the completion tail does (R130). -/
theorem State.releases_iff (v : Nat) :
    s.releases v = true ↔
      (v + s.run.copy.doneSize.toNat - s.window.doneHead) % s.run.copy.doneSize.toNat
        ≤ (s.post.tail + s.run.copy.doneSize.toNat - s.window.doneHead)
          % s.run.copy.doneSize.toNat :=
  decide_eq_true_iff

/-- DONE_HEAD is judged as the tails are, and a value within the ring by R130 too. -/
theorem exec_doneHeadWrite :
    exec (.doneHeadWrite value) s =
      .next (s.judged value.toNat s.run.copy.doneSize.toNat { s with window.doneHead := 0 }
        (if s.releases value.toNat then { s with window.doneHead := value.toNat }
          else s.flagged 4)) := by
  rw [← s.refuseWrite_flagged]; rfl

/-- Settles O43: the verdict by run state, then the records released. -/
theorem doneHeadReleasesWrittenRecords : Obligations.DoneHeadReleasesWrittenRecords := by
  intro s value v size after forward
  have hafter : after = _ := exec_doneHeadWrite s value
  refine ⟨fun hno => ?noRun, fun hstarting hne => ?refused, fun hstarting hzero => ?zero,
    fun hlive hlt hforward => ?accepted, fun hlive hbad => ?beyond⟩
  case noRun => rw [hafter, State.judged_of_no_run hno]
  case refused => rw [hafter, State.judged_of_starting hstarting, if_neg hne]
  case zero => rw [hafter, State.judged_of_starting hstarting, if_pos hzero]
  case accepted =>
    rw [hafter, State.judged_of_live hlive, if_pos hlt, if_pos ((s.releases_iff v).2 hforward)]
  case beyond =>
    rw [hafter, State.judged_of_live hlive]
    by_cases hlt : v < size
    · have hforward := hbad.resolve_left (Nat.not_le.2 hlt)
      rw [if_pos hlt, if_neg fun h => Nat.not_le.2 hforward ((s.releases_iff v).1 h)]
    · rw [if_neg hlt]

end Sys2Proof.Machine
end

/-! ## The end of the stop (O49) -/

section
namespace Sys2Proof.Machine

variable (s : State)

theorem State.flushModeration_of_empty (h : s.post.gathered = 0) :
    s.flushModeration = { s with post.gathered := 0, post.timer := none } := by
  rw [State.flushModeration, if_pos (beq_iff_eq.2 h), ← h]

/-- A gathering begun is signalled (R139). -/
theorem State.flushModeration_of_gathered (h : s.post.gathered ≠ 0) :
    s.flushModeration = ({ s with post.gathered := 0, post.timer := none } : State).flagged 0 := by
  rw [State.flushModeration, if_neg (mt beq_iff_eq.1 h), s.signalDone_flagged]

theorem State.canStop_iff : s.canStop = true ↔ s.run.runState = .stopping ∧ s.Drained := by
  rw [State.canStop, Bool.and_eq_true, beq_iff_eq, s.drained_iff]

/-- The card has entered STOPPED with its last gathering still to be signalled; reports of writes lapse
(R151). -/
def State.stopEntered (s : State) : State :=
  { s with run.runState := .stopped, link.undelivered := [] }

theorem exec_stopComplete (hstopping : s.run.runState = .stopping) (hdrained : s.Drained) :
    exec .stopComplete s = .next (s.stopEntered.flushModeration.flagged 2) := by
  rw [← State.setFlag_stopped]
  exact s.whenever_true _ (s.canStop_iff.2 ⟨hstopping, hdrained⟩)

/-- Settles O49: the drained card by whether a gathering has begun, and the card that is not drained. -/
theorem stopCompletesWhenDrained : Obligations.StopCompletesWhenDrained := by
  intro s hstopping stopped
  refine ⟨fun hdrained hempty => ?_, fun hdrained hgathered => ?_, fun hleft => ?_⟩
  · rw [exec_stopComplete s hstopping hdrained,
      s.stopEntered.flushModeration_of_empty hempty]; rfl
  · rw [exec_stopComplete s hstopping hdrained,
      s.stopEntered.flushModeration_of_gathered hgathered]; rfl
  · exact s.whenever_false _ (Bool.eq_false_iff.2 fun h => hleft (s.canStop_iff.1 h).2)

end Sys2Proof.Machine
end

/-! ## RUN written 1 (O37) -/

section
namespace Sys2Proof.Machine

variable (s : State)

/-- RUN written 1 in STOPPED has taken the card to STARTING, its setup read not yet issued (R145). -/
def State.startBegun (s : State) : State :=
  { s with
    run.runState := .starting
    run.faultCode := .none
    run.setupResult := .ok
    window.orderTail := 0
    window.poolTail := 0
    window.doneHead := 0
    window.run := true }

/-- The setup read of the start is issued (R145). -/
def State.setupReadIssued (s : State) : State :=
  { s with
    run.setupRead := some { tag := s.link.nextTag, address := s.window.setupHi ++ s.window.setupLo,
                            elapsed := 0, refused := !s.link.busMaster }
    link.nextTag := s.link.nextTag + 1 }

theorem State.beginStart_of_misaligned (h : ¬ 64 ∣ s.window.setupAddress.toNat) :
    s.beginStart = s.startBegun.startEnded .badAlignment := by
  rw [← State.endStart_startEnded]
  exact if_pos ((misaligned_iff _).2 h)

theorem State.beginStart_of_aligned (h : 64 ∣ s.window.setupAddress.toNat) :
    s.beginStart = s.startBegun.setupReadIssued :=
  if_neg fun hmis => (misaligned_iff _).1 hmis h

theorem State.writeRun1_of_stopped (h : s.run.runState = .stopped) : s.writeRun1 = s.beginStart := by
  rw [State.writeRun1, h]

theorem State.writeRun1_of_starting (h : s.run.runState = .starting) :
    s.writeRun1 = { s with window.run := true } := by
  rw [State.writeRun1, h]

theorem State.writeRun1_of_running_or_faulted
    (h : s.run.runState = .running ∨ s.run.runState = .faulted) : s.writeRun1 = s := by
  rcases h with h | h <;> rw [State.writeRun1, h]

theorem State.writeRun1_of_stopping (h : s.run.runState = .stopping) :
    s.writeRun1 = s.flagged 4 := by
  rw [State.writeRun1, h]; exact s.refuseWrite_flagged

theorem exec_runWritten1 : exec .runWritten1 s = .next s.writeRun1 := rfl

/-- Settles O37, by the run state, and in STOPPED by the alignment of the setup address. -/
theorem runWrittenOneBeginsStart : Obligations.RunWrittenOneBeginsStart := by
  intro s address begun after
  have hafter : after = .next s.writeRun1 := exec_runWritten1 s
  rw [hafter]
  refine ⟨fun hstopped hmis => ?misaligned, fun hstopped hal => ?aligned, fun hstarting => ?starting,
    fun hkept => ?kept, fun hstopping => ?refused⟩
  case misaligned => rw [s.writeRun1_of_stopped hstopped, s.beginStart_of_misaligned hmis]; rfl
  case aligned => rw [s.writeRun1_of_stopped hstopped, s.beginStart_of_aligned hal]; rfl
  case starting => rw [s.writeRun1_of_starting hstarting]
  case kept => rw [s.writeRun1_of_running_or_faulted hkept]
  case refused => rw [s.writeRun1_of_stopping hstopping]

end Sys2Proof.Machine
end

/-! ## Writes to a register without a row of its own (O44) -/

section
namespace Sys2Proof.Machine

variable (s : State) (value : BitVec 32)

/-- The offsets of the registers that the host writes (Table 8-8). -/
def writableOffsets : List (BitVec 6) :=
  [offControl, offEvents, offEventMask, offSetupLo, offSetupHi, offOrderTail, offPoolTail, offDoneHead]

/-- No writable register is one of the read-only ones, and none lies beyond the registers. -/
theorem writableOffsets_registers :
    ∀ o ∈ writableOffsets, o ∉ [(0x00 : BitVec 6), 0x08, 0x28, 0x2C] ∧ o.toNat < 0x30 := by
  decide

theorem State.writeWindow_setupLo :
    s.writeWindow offSetupLo .bits32 value = { s with window.setupLo := value } := rfl

theorem State.writeWindow_setupHi :
    s.writeWindow offSetupHi .bits32 value = { s with window.setupHi := value } := rfl

theorem State.writeWindow_of_unaligned {offset : BitVec 6} (width : AccessWidth)
    (h : ¬ 4 ∣ offset.toNat) : s.writeWindow offset width value = s.flagged 4 := by
  rw [Nat.dvd_iff_mod_eq_zero] at h
  exact s.writeWindow_of_not_wellShaped value (by rw [wellShaped, beq_false_of_ne h, Bool.and_false])

/-- A write to an offset that holds no writable register is refused, whatever its shape (R156). -/
theorem State.writeWindow_of_not_writable {offset : BitVec 6} (width : AccessWidth)
    (h : offset ∉ writableOffsets) : s.writeWindow offset width value = s.flagged 4 := by
  cases hshape : wellShaped offset width
  · exact s.writeWindow_of_not_wellShaped value hshape
  · have hne : ∀ {o : BitVec 6}, o ∈ writableOffsets → (offset == o) = false := fun ho =>
      beq_false_of_ne fun heq => h (heq ▸ ho)
    rw [State.writeWindow, hshape, hne (o := offControl) (by decide),
      hne (o := offEvents) (by decide), hne (o := offEventMask) (by decide),
      hne (o := offSetupLo) (by decide), hne (o := offSetupHi) (by decide),
      hne (o := offOrderTail) (by decide), hne (o := offPoolTail) (by decide),
      hne (o := offDoneHead) (by decide)]
    exact s.refuseWrite_flagged

theorem exec_registerWrite (offset : BitVec 6) (width : AccessWidth) :
    exec (.registerWrite offset width value) s = .next (s.writeWindow offset width value) := rfl

/-- Settles O44: the two stores, and the refusals by what is wrong with the access. -/
theorem registerWriteStoresOrRefuses : Obligations.RegisterWriteStoresOrRefuses := by
  intro s offset width value after
  have hafter : after = .next (s.writeWindow offset width value) :=
    exec_registerWrite s value offset width
  rw [hafter]
  refine ⟨?low, ?high, fun hbad => congrArg Host.Outcome.next ?refused⟩
  case low => rintro rfl rfl; exact congrArg _ (s.writeWindow_setupLo value)
  case high => rintro rfl rfl; exact congrArg _ (s.writeWindow_setupHi value)
  case refused =>
    rcases hbad with hwidth | halign | hreadOnly | hbeyond
    · exact s.writeWindow_of_width_ne value offset hwidth
    · exact s.writeWindow_of_unaligned value width halign
    · exact s.writeWindow_of_not_writable value width fun hw =>
        (writableOffsets_registers offset hw).1 hreadOnly
    · exact s.writeWindow_of_not_writable value width fun hw =>
        Nat.not_le.2 (writableOffsets_registers offset hw).2 hbeyond

end Sys2Proof.Machine
end

/-! ## Bus errors and failed starts (O47, O48) -/

section
namespace Sys2Proof.Machine

variable (s : State)

/-! ### The reads in flight and the run states in which errors count (R151) -/

theorem BusRead.timedOut_iff (r : BusRead) (tag : Nat) :
    r.timedOut tag = true ↔ r.tag = tag ∧ 50000 ≤ r.elapsed := by
  rw [BusRead.timedOut, Bool.and_eq_true, beq_iff_eq, decide_eq_true_iff]; rfl

theorem State.setupReading_iff (p : BusRead → Bool) :
    s.setupReading p = true ↔
      s.run.runState = .starting ∧ ∃ r, s.run.setupRead = some r ∧ p r = true := by
  rw [State.setupReading, Bool.and_eq_true, beq_iff_eq, Option.any_eq_true]

theorem State.orderReading_iff (p : BusRead → Bool) :
    s.orderReading p = true ↔ s.Live ∧ ∃ r, s.fetch.read = some r ∧ p r.read = true := by
  rw [State.orderReading, Bool.and_eq_true, State.isLive_iff, Option.any_eq_true]

theorem State.poolReading_iff (p : BusRead → Bool) :
    s.poolReading p = true ↔ s.Live ∧ ∃ r, s.pages.poolRead = some r ∧ p r = true := by
  rw [State.poolReading, Bool.and_eq_true, State.isLive_iff, Option.any_eq_true]

theorem State.canFault_iff : s.canFault = true ↔ s.run.runState = .starting ∨ s.Live := by
  rw [State.canFault, Bool.or_eq_true, beq_iff_eq, State.isLive_iff]

variable {s}

theorem State.not_starting_of_live (h : s.Live) : s.run.runState ≠ .starting := by
  rcases h with h | h <;> rw [h] <;> decide

/-- The setup read counts in STARTING alone (R146). -/
theorem State.setupReading_of_live (h : s.Live) (p : BusRead → Bool) : s.setupReading p = false :=
  Bool.eq_false_iff.2 fun hr => State.not_starting_of_live h ((s.setupReading_iff p).1 hr).1

/-- In STOPPED and FAULTED no bus error counts (R151, R152). -/
theorem State.canFault_of_no_run (h : s.run.runState = .stopped ∨ s.run.runState = .faulted) :
    s.canFault = false := by
  rw [State.canFault, State.isLive]; rcases h with h | h <;> rw [h] <;> rfl

/-- In STOPPED and FAULTED no answer to a read counts (R151, R152). -/
theorem State.noReading_of_no_run (h : s.run.runState = .stopped ∨ s.run.runState = .faulted)
    (p : BusRead → Bool) :
    s.setupReading p = false ∧ s.orderReading p = false ∧ s.poolReading p = false := by
  rw [State.setupReading, State.orderReading, State.poolReading, State.isLive]
  rcases h with h | h <;> rw [h] <;> exact ⟨rfl, rfl, rfl⟩

/-! ### The end of a start by its setup read (R146) -/

/-- Settles O47: the answer with an error and the timeout name the same read. -/
theorem setupReadErrorEndsStart : Obligations.SetupReadErrorEndsStart := by
  intro s r hstarting hread
  rw [← s.endStart_startEnded]
  refine ⟨s.whenever_true _ ((s.setupReading_iff _).2 ⟨hstarting, r, hread, beq_self_eq_true _⟩),
    fun hlate => if_pos ((s.setupReading_iff _).2 ⟨hstarting, r, hread, ?_⟩)⟩
  exact (r.timedOut_iff r.tag).2 ⟨rfl, hlate⟩

/-! ### The entry to FAULTED (R151, R152) -/

theorem State.whenever_entersFaulted {ready : Bool} (h : ready = true) (code : FaultCode) :
    ∃ t, s.whenever ready (s.enterFaulted code) = .next t ∧ EntersFaulted s t code :=
  ⟨_, s.whenever_true _ h, s.enterFaulted_entersFaulted code⟩

/-- Outside a start the timeout is that of the order read it names, or else of the pool read. -/
theorem exec_completionTimeout_of_not_setup {tag : Nat}
    (h : s.setupReading (BusRead.timedOut · tag) = false) :
    exec (.completionTimeout tag) s =
      if s.orderReading (BusRead.timedOut · tag) then .next (s.enterFaulted .fetchError)
      else s.whenever (s.poolReading (BusRead.timedOut · tag)) (s.enterFaulted .poolError) :=
  if_neg (Bool.eq_false_iff.1 h)

theorem orderReadError_entersFaulted {r : OrderRead} (hlive : s.Live)
    (hread : s.fetch.read = some r) :
    (∃ t, exec (.fetchError r.read.tag) s = .next t ∧ EntersFaulted s t .fetchError)
      ∧ (50000 ≤ r.read.elapsed →
        ∃ t, exec (.completionTimeout r.read.tag) s = .next t ∧ EntersFaulted s t .fetchError) := by
  refine ⟨State.whenever_entersFaulted
    ((s.orderReading_iff (·.tag == r.read.tag)).2 ⟨hlive, r, hread, beq_self_eq_true _⟩) _,
    fun hlate => ?_⟩
  have hreading : s.orderReading (BusRead.timedOut · r.read.tag) = true :=
    (s.orderReading_iff _).2 ⟨hlive, r, hread, (r.read.timedOut_iff _).2 ⟨rfl, hlate⟩⟩
  rw [exec_completionTimeout_of_not_setup (State.setupReading_of_live hlive _), if_pos hreading]
  exact ⟨_, rfl, s.enterFaulted_entersFaulted _⟩

theorem poolReadError_entersFaulted {r : BusRead} (hlive : s.Live)
    (hread : s.pages.poolRead = some r) :
    (∃ t, exec (.poolError r.tag) s = .next t ∧ EntersFaulted s t .poolError)
      ∧ (50000 ≤ r.elapsed → (∀ o, s.fetch.read = some o → o.read.tag ≠ r.tag) →
        ∃ t, exec (.completionTimeout r.tag) s = .next t ∧ EntersFaulted s t .poolError) := by
  refine ⟨State.whenever_entersFaulted
    ((s.poolReading_iff (·.tag == r.tag)).2 ⟨hlive, r, hread, beq_self_eq_true _⟩) _,
    fun hlate hother => ?_⟩
  have hreading : s.poolReading (BusRead.timedOut · r.tag) = true :=
    (s.poolReading_iff _).2 ⟨hlive, r, hread, (r.timedOut_iff _).2 ⟨rfl, hlate⟩⟩
  have horder : ¬ s.orderReading (BusRead.timedOut · r.tag) = true := fun h => by
    obtain ⟨-, o, ho, htimed⟩ := (s.orderReading_iff _).1 h
    exact hother o ho ((o.read.timedOut_iff _).1 htimed).1
  rw [exec_completionTimeout_of_not_setup (State.setupReading_of_live hlive _), if_neg horder]
  exact State.whenever_entersFaulted hreading _

/-- With no run under way a completion timeout changes nothing (R151). -/
theorem exec_completionTimeout_of_no_run
    (h : s.run.runState = .stopped ∨ s.run.runState = .faulted) (tag : Nat) :
    exec (.completionTimeout tag) s = .next s := by
  obtain ⟨hsetup, horder, hpool⟩ := State.noReading_of_no_run h (BusRead.timedOut · tag)
  rw [exec_completionTimeout_of_not_setup hsetup, horder]
  exact s.whenever_false _ hpool

/-- Settles O48: the two reads, the errors without a read, and the run states in which none counts. -/
theorem busErrorsEnterFaulted : Obligations.BusErrorsEnterFaulted := by
  refine ⟨fun s r => orderReadError_entersFaulted, fun s r => poolReadError_entersFaulted,
    fun s hrun => ?writes, fun s tag hno c hc => ?none⟩
  case writes =>
    have hcan : s.canFault = true := s.canFault_iff.2 hrun
    exact ⟨State.whenever_entersFaulted hcan _, State.whenever_entersFaulted hcan _,
      State.whenever_entersFaulted hcan _⟩
  case none =>
    have hcan := State.canFault_of_no_run hno
    obtain ⟨-, horder, hpool⟩ := State.noReading_of_no_run hno (·.tag == tag)
    simp only [List.mem_cons, List.not_mem_nil, or_false] at hc
    rcases hc with rfl | rfl | rfl | rfl | rfl | rfl
    · exact s.whenever_false _ horder
    · exact s.whenever_false _ hpool
    · exact s.whenever_false _ hcan
    · exact s.whenever_false _ hcan
    · exact exec_completionTimeout_of_no_run hno tag
    · exact s.whenever_false _ hcan

end Sys2Proof.Machine
end

/-! ## The run state follows Table 8-2 (O59) -/

section
namespace Sys2Proof.Machine

/-! ### The run state that each transition leaves -/

section
variable (s : State)

theorem State.runState_endStart (result : SetupResult) :
    (s.endStart result).run.runState = .stopped := by
  rw [s.endStart_startEnded]; rfl

theorem State.runState_enterFaulted (code : FaultCode) :
    (s.enterFaulted code).run.runState = .faulted := by
  obtain ⟨-, -, h⟩ := s.enterFaulted_entersFaulted code
  rw [h]

theorem State.runState_enterRunning (c : SetupCopy) :
    (s.enterRunning c).run.runState = .running :=
  congrArg RunControl.runState (State.commitLines_run _ _ _)

theorem State.runState_leaveFaulted : s.leaveFaulted.run.runState = .stopped :=
  congrArg RunControl.runState (State.commitLines_run _ _ _)

theorem State.runState_resetByHost : s.resetByHost.run.runState = .stopped := by
  unfold State.resetByHost
  split
  · exact congrArg RunControl.runState (State.commitLines_run _ _ _)
  · rfl

theorem State.runState_resetByPower : s.resetByPower.run.runState = .stopped :=
  congrArg RunControl.runState (State.commitLines_run _ _ _)

/-- A misaligned setup address takes the card back to STOPPED at once (R145). -/
theorem State.runState_beginStart :
    s.beginStart.run.runState = .stopped ∨ s.beginStart.run.runState = .starting := by
  by_cases h : 64 ∣ s.window.setupAddress.toNat
  · rw [s.beginStart_of_aligned h]; exact .inr rfl
  · rw [s.beginStart_of_misaligned h]; exact .inl rfl

theorem State.runState_setupData (c : SetupCopy) :
    (s.setupData c).run.runState = .running ∨ (s.setupData c).run.runState = .stopped := by
  unfold State.setupData
  split
  · exact .inr (s.runState_endStart _)
  · split
    · exact .inl (s.runState_enterRunning c)
    · exact .inr (s.runState_endStart _)

theorem State.runState_beginStop (lossFirst : BitVec 32) :
    (s.beginStop lossFirst).run.runState = .stopping := by
  rw [s.beginStop_eq]
  generalize slotNumbers = is
  exact congrArg Prod.snd (State.monitor_foldl (State.monitor_haltSlot lossFirst) is _)

theorem State.writeRun0_of_running (lossFirst : BitVec 32) (h : s.run.runState = .running) :
    s.writeRun0 lossFirst = s.beginStop lossFirst := by
  rw [State.writeRun0, h]

theorem State.runState_tick : s.tick.run.runState = s.run.runState := by
  by_cases h : s.run.runState = .faulted
  · rw [s.tick_of_faulted h]
  · exact congrArg Prod.snd (State.monitor_tick h)

end

/-! ### Commands and the table -/

/-- If the result is a next state, Table 8-2 lists its run state for the command `c` given in `s`. -/
def TurnsByTable (c : Instr) (s : State) (r : Result) : Prop :=
  ∀ t, r = .next t → s.run.runState.MayBecome c t.run.runState

section
variable {s : State} {c : Instr}

theorem TurnsByTable.next {t : State} (h : s.run.runState.MayBecome c t.run.runState) :
    TurnsByTable c s (.next t) := by
  rintro _ ⟨⟩; exact h

theorem TurnsByTable.whenever {ready : Bool} {effect : State}
    (h : ready = true → s.run.runState.MayBecome c effect.run.runState) :
    TurnsByTable c s (s.whenever ready effect) := by
  refine .next ?_
  split
  next hr => exact h hr
  · exact .inl rfl

/-- What leaves the lines and the run state alone is no transition. -/
theorem KeepsMonitor.turns {r : Result} (h : KeepsMonitor s r) : TurnsByTable c s r :=
  fun t ht => .inl (congrArg Prod.snd (h t ht))

/-- A change of the lines alone is no transition. -/
theorem mayBecome_commitLines (v : Vector Line 16) (sameMoment : Bool) :
    s.run.runState.MayBecome c (s.commitLines v sameMoment).run.runState :=
  .inl (congrArg RunControl.runState (s.commitLines_run v sameMoment))

/-- A bus error takes the card to FAULTED from where the table lists it for the command. -/
theorem faults_turns {ready : Bool} (code : FaultCode)
    (h : ready = true → s.run.runState.MayBecome c .faulted) :
    TurnsByTable c s (s.whenever ready (s.enterFaulted code)) :=
  .whenever fun hr => by rw [s.runState_enterFaulted]; exact h hr

theorem rawLevelChange_turns (k : Fin 16) (level sameMoment : Bool) :
    TurnsByTable c s (execRawLevelChange k level sameMoment s) := by
  unfold execRawLevelChange
  dsimp only
  split
  · exact .next (.inl rfl)
  · split
    · exact .next (.inl rfl)
    · exact .next (mayBecome_commitLines _ _)

theorem lines_turns : TurnsByTable c s (execLines s) := by
  unfold execLines
  split
  · exact .next (.inl rfl)
  next o _ => exact .next (mayBecome_commitLines (s := s.takeAndAnswer o .ok) _ _)

theorem runWritten1_turns : TurnsByTable .runWritten1 s (.next s.writeRun1) := by
  refine .next ?_
  cases hrun : s.run.runState with
  | stopped =>
    rw [s.writeRun1_of_stopped hrun]
    exact s.runState_beginStart.imp id fun h => ⟨rfl, h⟩
  | starting => rw [s.writeRun1_of_starting hrun]; exact .inl hrun
  | running => rw [s.writeRun1_of_running_or_faulted (.inl hrun)]; exact .inl hrun
  | stopping => rw [s.writeRun1_of_stopping hrun]; exact .inl hrun
  | faulted => rw [s.writeRun1_of_running_or_faulted (.inr hrun)]; exact .inl hrun

theorem runWritten0_turns (lossFirst : BitVec 32) :
    TurnsByTable (.runWritten0 lossFirst) s (.next (s.writeRun0 lossFirst)) := by
  refine .next ?_
  cases hrun : s.run.runState with
  | stopped => rw [s.writeRun0_of_stopped_or_starting lossFirst (.inl hrun)]; exact .inl hrun
  | starting => rw [s.writeRun0_of_stopped_or_starting lossFirst (.inr hrun)]; exact .inl hrun
  | running =>
    rw [s.writeRun0_of_running lossFirst hrun]
    exact .inr (.inl ⟨rfl, s.runState_beginStop lossFirst⟩)
  | stopping => rw [s.writeRun0_of_stopping lossFirst hrun]; exact .inl hrun
  | faulted =>
    rw [s.writeRun0_of_faulted lossFirst hrun]
    exact .inr (.inr ⟨rfl, s.runState_leaveFaulted⟩)

/-- A write that is not to CONTROL, or that is refused for its shape, is no transition (R156). -/
theorem writeWindow_turns {offset : BitVec 6} {width : AccessWidth} (value : BitVec 32)
    (h : wellShaped offset width = true → offset ≠ offControl) :
    TurnsByTable c s (.next (s.writeWindow offset width value)) :=
  (KeepsMonitor.next (s.monitor_writeWindow offset width value (by
    rw [← Bool.not_eq_true, or_comm, ← imp_iff_not_or]; exact h))).turns

theorem setupReadData_turns (tag : Nat) (data : BitVec 1024) :
    TurnsByTable (.setupReadData tag data) s (execSetupReadData tag data s) :=
  .whenever fun hr => .inr ⟨((s.setupReading_iff _).1 hr).1, s.runState_setupData _⟩

theorem setupReadError_turns (tag : Nat) :
    TurnsByTable (.setupReadError tag) s (execSetupReadError tag s) :=
  .whenever fun hr => .inr ⟨((s.setupReading_iff _).1 hr).1, s.runState_endStart _⟩

theorem stopComplete_turns : TurnsByTable .stopComplete s (execStopComplete s) := by
  refine .whenever fun hc => .inr ⟨(s.canStop_iff.1 hc).1, ?_⟩
  exact congrArg Prod.snd ((State.monitor_setFlag _ _).trans (s.stopEntered.monitor_flushModeration))

theorem completionTimeout_turns (tag : Nat) :
    TurnsByTable (.completionTimeout tag) s (execCompletionTimeout tag s) := by
  unfold execCompletionTimeout
  split
  next hr =>
    exact .next (.inr (.inl ⟨((s.setupReading_iff _).1 hr).1, s.runState_endStart _⟩))
  · split
    next hr =>
      exact .next (.inr (.inr ⟨((s.orderReading_iff _).1 hr).1, s.runState_enterFaulted _⟩))
    · exact faults_turns _ fun hr => .inr (.inr ⟨((s.poolReading_iff _).1 hr).1, rfl⟩)

end

/-- Every well-formed command turns the run state as Table 8-2 lists for it (R143). -/
theorem exec_turns {s : State} (c : Instr) (hwell : c.wellFormed = true) :
    TurnsByTable c s (exec c s) := by
  cases c with
  | rawLevelChange k level sameMoment => exact rawLevelChange_turns k level sameMoment
  | qualificationTimerExpiry k sameMoment => exact .whenever fun _ => mayBecome_commitLines _ _
  | lineEventTaken i => exact (KeepsMonitor.whenever (s.monitor_takeLineEvent i)).turns
  | holdExpiry i => exact (KeepsMonitor.whenever (s.monitor_fire i _ _ _)).turns
  | armExpiry i => exact keepsMonitor_armExpiry.turns
  | delayExpiry i => exact (KeepsMonitor.whenever (s.monitor_fire i _ _ _)).turns
  | gateOpening i => exact (KeepsMonitor.whenever (s.monitor_enterWatch i _)).turns
  | gateLoss i => exact (KeepsMonitor.whenever (s.monitor_closeSlot i _ _)).turns
  | firedRecordTaken i => exact (KeepsMonitor.whenever (s.monitor_takeFired i)).turns
  | firingCompletion i => exact keepsMonitor_firingCompletion.turns
  | orderDoneTaken i => exact keepsMonitor_orderDoneTaken.turns
  | intervalTimerExpiry i => exact keepsMonitor_intervalTimerExpiry.turns
  | grant => exact (KeepsMonitor.whenever s.monitor_grantHead).turns
  | entrySettled => exact keepsMonitor_entrySettled.turns
  | conversionDone nanovolts => exact (keepsMonitor_conversionDone nanovolts).turns
  | poolReadIssue => exact keepsMonitor_poolReadIssue.turns
  | poolReadData tag data => exact (KeepsMonitor.whenever (s.monitor_poolData _)).turns
  | resultTaken => exact keepsMonitor_resultTaken.turns
  | pageCloseRequest i => exact keepsMonitor_pageCloseRequest.turns
  | flushExpiry i => exact keepsMonitor_flushExpiry.turns
  | pageClose i => exact keepsMonitor_pageClose.turns
  | unusedReturn => exact keepsMonitor_unusedReturn.turns
  | noticeTaken => exact (KeepsMonitor.whenever s.monitor_takeNotice).turns
  | recordWrite => exact (KeepsMonitor.whenever s.monitor_writeRecord).turns
  | moderationTimerExpiry => exact (KeepsMonitor.whenever s.monitor_signalDone).turns
  | orderReadIssue => exact keepsMonitor_orderReadIssue.turns
  | orderReadData tag data => exact (keepsMonitor_orderReadData tag data).turns
  | arm => exact (KeepsMonitor.whenever s.monitor_takeSlotOrder).turns
  | sample => exact (KeepsMonitor.whenever s.monitor_takeSlotOrder).turns
  | cancel => exact keepsMonitor_cancel.turns
  | lines => exact lines_turns
  | fence => exact keepsMonitor_fence.turns
  | badOrder => exact keepsMonitor_badOrder.turns
  | fenceLimitExpiry => exact (KeepsMonitor.whenever (s.monitor_settleFence _)).turns
  | fenceDoneTaken => exact keepsMonitor_fenceDoneTaken.turns
  | runWritten1 => exact runWritten1_turns
  | runWritten0 lossFirst => exact runWritten0_turns lossFirst
  | hostReset => exact .next (.inr s.runState_resetByHost)
  | eventsWrite width value => exact writeWindow_turns value fun _ => by decide
  | eventMaskWrite width value => exact writeWindow_turns value fun _ => by decide
  | orderTailWrite value => exact (KeepsMonitor.next (s.monitor_writeOrderTail value)).turns
  | poolTailWrite value => exact (KeepsMonitor.next (s.monitor_writePoolTail value)).turns
  | doneHeadWrite value => exact (KeepsMonitor.next (s.monitor_writeDoneHead value)).turns
  | registerWrite offset width value =>
    exact writeWindow_turns value fun hshape => (registerWrite_not_own_row hwell hshape).1
  | setupReadData tag data => exact setupReadData_turns tag data
  | setupReadError tag => exact setupReadError_turns tag
  | stopComplete => exact stopComplete_turns
  | fetchError tag => exact faults_turns _ fun hr => .inr ⟨((s.orderReading_iff _).1 hr).1, rfl⟩
  | poolError tag => exact faults_turns _ fun hr => .inr ⟨((s.poolReading_iff _).1 hr).1, rfl⟩
  | pageError => exact faults_turns _ fun hr => .inr ⟨s.canFault_iff.1 hr, rfl⟩
  | postError => exact faults_turns _ fun hr => .inr ⟨s.canFault_iff.1 hr, rfl⟩
  | completionTimeout tag => exact completionTimeout_turns tag
  | linkDown => exact faults_turns _ fun hr => .inr ⟨s.canFault_iff.1 hr, rfl⟩
  | powerOnReset => exact .next (.inr s.runState_resetByPower)
  | linkReset => exact .next (.inr s.runState_resetByPower)
  | configurationSpaceWrite busMaster msi => exact (KeepsMonitor.next rfl).turns

/-- Settles O59, by the command, and for a microsecond by the run state. -/
theorem runStateChangesOnlyByTable : Obligations.RunStateChangesOnlyByTable := by
  refine ⟨fun c s t hwell => exec_turns c hwell t, fun s t hidle hstep => ?_⟩
  have hnext : step s = .next (if s.eventDue then s else s.tick) := by rw [step, hidle]; rfl
  obtain rfl := Host.Outcome.next.inj (hnext.symm.trans hstep)
  split
  · rfl
  · exact s.runState_tick

end Sys2Proof.Machine
end

/-! ## The records the card writes (O50) -/

section
namespace Sys2Proof.Machine

/-! ### Fields of a written record (chapter 9) -/

section
variable {bytes field : List Byte} {o n k : Nat}

/-- A field that stands at an offset gives its bytes there. -/
theorem getElem?_of_field (h : (bytes.drop o).take n = field) (hk : k < n) :
    bytes[o + k]? = field[k]? := by
  rw [← h, List.getElem?_take_of_lt hk, List.getElem?_drop]

theorem getElem?_leBytes {w : Nat} (x : BitVec w) (hk : k < n) :
    (leBytes n x)[k]? = some (byteOf x k) := by
  rw [leBytes, List.getElem?_map, List.getElem?_range hk]
  rfl

/-- A word stands at its offset least significant byte first (scope 3.1). -/
theorem byteOf_of_field {w : Nat} {x : BitVec w} (h : (bytes.drop o).take n = leBytes n x) :
    ∀ k < n, bytes[o + k]? = some (byteOf x k) :=
  fun _ hk => (getElem?_of_field h hk).trans (getElem?_leBytes x hk)

/-- A word at the start of a record gives its bytes there. -/
theorem byteOf_of_firstField {w : Nat} {x : BitVec w} (h : bytes.take n = leBytes n x) :
    ∀ k < n, bytes[k]? = some (byteOf x k) := fun k hk => by
  rw [← List.getElem?_take_of_lt hk, h, getElem?_leBytes x hk]

/-- Unused bytes are written as 0 (R161). -/
theorem zero_of_field (h : (bytes.drop o).take n = List.replicate n 0) :
    ∀ k < n, bytes[o + k]? = some 0 :=
  fun _ hk => (getElem?_of_field h hk).trans (List.getElem?_replicate_of_lt hk)

end

/-! ### Bytes of a number -/

theorem byteOf_zero {w : Nat} (k : Nat) : byteOf (0 : BitVec w) k = 0 := BitVec.extractLsb'_zero

/-- A number at its full width shows its base-256 digits (R161). -/
theorem byteOf_ofNat {w k : Nat} (x : Nat) (h : 8 * k + 8 ≤ w) :
    byteOf (BitVec.ofNat w x) k = BitVec.ofNat 8 (x / 256 ^ k) := by
  refine BitVec.eq_of_getLsbD_eq fun i hi => ?_
  have hw : 8 * k + i < w := by omega
  have hpow : 256 ^ k = 2 ^ (8 * k) := (pow_mul 2 8 k).symm
  simp only [byteOf, BitVec.getLsbD_extractLsb', BitVec.getLsbD_ofNat, hw, hi, hpow,
    Nat.testBit_div_two_pow, decide_true, Bool.true_and]
  rw [Nat.add_comm]

/-- A number of two bytes stands at its offset as its base-256 digits (R161). -/
theorem ofNat_of_field {bytes : List Byte} {o x : Nat}
    (h : (bytes.drop o).take 2 = leBytes 2 (BitVec.ofNat 16 x)) :
    ∀ k < 2, bytes[o + k]? = some (BitVec.ofNat 8 (x / 256 ^ k)) := fun k hk =>
  (byteOf_of_field h k hk).trans (congrArg some (byteOf_ofNat x (by omega)))

/-! ### Page flags (Table 9-8) -/

theorem PageFlags.bits_eq (f : PageFlags) :
    f.bits = (BitVec.ofBool f.unused ++ BitVec.ofBool f.flushed ++ BitVec.ofBool f.endOfOrder
      ++ BitVec.ofBool f.endOfFiring).setWidth 16 := by
  obtain ⟨endOfFiring, endOfOrder, flushed, unused⟩ := f
  revert endOfFiring endOfOrder flushed unused
  decide

/-- The header keeps bits 2 to 0, for no header is written for an UNUSED page (R162). -/
theorem PageFlags.headerBits_eq (f : PageFlags) :
    f.bits &&& 7 = (BitVec.ofBool f.flushed ++ BitVec.ofBool f.endOfOrder
      ++ BitVec.ofBool f.endOfFiring).setWidth 16 := by
  obtain ⟨endOfFiring, endOfOrder, flushed, unused⟩ := f
  revert endOfFiring endOfOrder flushed unused
  decide

section
variable {w : Nat} (x : BitVec w)

theorem byteOf_setWidth_zero : byteOf (x.setWidth 16) 0 = x.setWidth 8 := by
  refine BitVec.eq_of_getLsbD_eq fun i hi => ?_
  have hi' : i < 16 := by omega
  simp [byteOf, hi, hi']

theorem byteOf_setWidth_one (h : w ≤ 8) : byteOf (x.setWidth 16) 1 = 0 := by
  refine BitVec.eq_of_getLsbD_eq fun i hi => ?_
  simp [byteOf, BitVec.getLsbD_of_ge x (8 + i) (by omega)]

/-- Few bits in a field of two bytes stand in the first one, and the second one is 0. -/
theorem lowByte_of_field {bytes : List Byte} {o : Nat} {x : BitVec w} (hw : w ≤ 8)
    (h : (bytes.drop o).take 2 = leBytes 2 (x.setWidth 16)) :
    bytes[o]? = some (x.setWidth 8) ∧ bytes[o + 1]? = some 0 :=
  ⟨(byteOf_of_field h 0 (by omega)).trans (congrArg some (byteOf_setWidth_zero x)),
    (byteOf_of_field h 1 (by omega)).trans (congrArg some (byteOf_setWidth_one x hw))⟩

end

/-! ### The common part of a completion record (Table 9-6) -/

section
variable (r : CompletionRecord) (lap : Bool) (head : Nat)

theorem CompletionRecord.bytes_length : (r.bytes lap head).length = 32 := by cases r <;> rfl

/-- The lap bit stands above the kind code and leaves it as it is. -/
theorem kindByte_lap {code : Byte} (h : code.toNat < 128) :
    (code ||| if lap then 0x80 else 0).getLsbD 7 = lap
      ∧ (code ||| if lap then 0x80 else 0).toNat % 128 = code.toNat := by
  have hbit : code.getLsbD 7 = false := Nat.testBit_lt_two_pow h
  constructor
  · rw [BitVec.getLsbD_or, hbit]
    cases lap <;> rfl
  · rw [BitVec.toNat_or, Nat.or_mod_two_pow (n := 7), Nat.mod_eq_of_lt h]
    cases lap <;> exact Nat.or_zero _

theorem CompletionRecord.kindCode_lt : r.kindCode.toNat < 128 := by
  rw [kindCode.eq_def]
  split <;> decide

/-- The detail code stands above the status code. -/
theorem statusByte_toNat (detail : BitVec 4) (status : Status) :
    (detail ++ status.code).toNat = 16 * detail.toNat + status.code.toNat := by
  rw [BitVec.toNat_append, ← Nat.shiftLeft_add_eq_or_of_lt status.code.isLt, Nat.shiftLeft_eq,
    Nat.mul_comm]

theorem CompletionRecord.bytes_tag :
    ∀ k < 2, (r.bytes lap head)[2 + k]? = some (byteOf r.tag k) :=
  byteOf_of_field rfl

theorem CompletionRecord.bytes_orderNumber :
    ∀ k < 4, (r.bytes lap head)[4 + k]? = some (byteOf r.orderNumber k) :=
  byteOf_of_field rfl

theorem CompletionRecord.bytes_head (h : head < 4096) :
    ∀ k < 2, (r.bytes lap head)[8 + k]? = some (BitVec.ofNat 8 (head / 256 ^ k)) := by
  have hfit : (BitVec.ofNat 12 head).setWidth 16 = BitVec.ofNat 16 head :=
    BitVec.eq_of_toNat_eq (by simp; omega)
  exact ofNat_of_field (congrArg (leBytes 2) hfit)

end

/-! ### The values of a scan record (Table 9-10) -/

theorem values_length (values : List (BitVec 14)) :
    (values.flatMap fun v => leBytes 2 (v.setWidth 16)).length = 2 * values.length := by
  simp [leBytes, Nat.mul_comm]

/-- Value `j` stands in the two bytes from `2 * j` on. -/
theorem values_getElem? {values : List (BitVec 14)} {j k : Nat} {v : BitVec 14}
    (hv : values[j]? = some v) (hk : k < 2) :
    (values.flatMap fun v => leBytes 2 (v.setWidth 16))[2 * j + k]?
      = some (byteOf (v.setWidth 16) k) := by
  induction values generalizing j with
  | nil => cases hv
  | cons first values ih =>
    rw [List.flatMap_cons]
    cases j with
    | zero =>
      cases hv
      rw [Nat.mul_zero, Nat.zero_add, List.getElem?_append_left hk, getElem?_leBytes _ hk]
    | succ j =>
      have hlen : (leBytes 2 (first.setWidth 16)).length = 2 := rfl
      rw [List.getElem?_append_right (by omega), ← ih hv]
      congr 1
      omega

/-! ### The three records -/

/-- Settles O50: the common part of a completion record and the fields of each kind, the page header
and the scan record, each field by the bytes from its offset on. -/
theorem writtenRecordsHaveTheirLayout : Obligations.WrittenRecordsHaveTheirLayout := by
  refine ⟨fun r lap head hhead => ?completion, fun tag sequence scans flags first => ?header,
    fun timestamp snapshot missed index values => ?scan⟩
  case completion =>
    refine ⟨r.bytes_length lap head, ?kind, ?status, ?tag, ?number, r.bytes_head lap head hhead,
      ?body⟩
    case kind =>
      rintro _ ⟨⟩
      obtain ⟨hlap, hcode⟩ := kindByte_lap lap r.kindCode_lt
      exact ⟨hlap, hcode.trans (by cases r <;> rfl)⟩
    case status =>
      rintro _ ⟨⟩
      refine (statusByte_toNat r.detail r.status).trans ?_
      cases r with
      | orderDone x =>
        refine congrArg (16 * x.detail.toNat + ·) (?_ : x.status.code.toNat = _)
        cases x.status <;> rfl
      | fired | page | notice => rfl
    case tag =>
      intro k hk
      rw [r.bytes_tag lap head k hk]
      cases r with
      | orderDone | fired | page => rfl
      | notice => exact congrArg some (byteOf_zero k)
    case number =>
      intro k hk
      rw [r.bytes_orderNumber lap head k hk]
      cases r with
      | orderDone | fired | page => rfl
      | notice => exact congrArg some (byteOf_zero k)
    case body =>
      cases r with
      | orderDone x =>
        exact ⟨byteOf_of_field rfl, byteOf_of_field rfl, byteOf_of_field rfl, byteOf_of_field rfl,
          byteOf_of_field rfl, byteOf_of_field rfl⟩
      | fired x =>
        exact ⟨rfl, rfl, byteOf_of_field rfl, byteOf_of_field rfl, byteOf_of_field rfl,
          byteOf_of_field rfl, zero_of_field rfl⟩
      | page x =>
        obtain ⟨hflags, hunused⟩ :=
          lowByte_of_field (bytes := (CompletionRecord.page x).bytes lap head) (o := 0x0C)
            (by omega) (congrArg (leBytes 2) x.flags.bits_eq)
        exact ⟨byteOf_of_field rfl, hflags, hunused, byteOf_of_field rfl, byteOf_of_field rfl,
          byteOf_of_field rfl, zero_of_field rfl⟩
      | notice x =>
        exact ⟨rfl, rfl, ofNat_of_field rfl, byteOf_of_field rfl, byteOf_of_field rfl,
          zero_of_field rfl⟩
  case header =>
    obtain ⟨hflags, hunused⟩ :=
      lowByte_of_field (bytes := pageHeaderBytes tag sequence scans flags first) (o := 6) (by omega)
        (congrArg (leBytes 2) flags.headerBits_eq)
    exact ⟨rfl, fun k hk => ⟨byteOf_of_firstField rfl k hk, byteOf_of_field rfl k hk,
      byteOf_of_field rfl k hk⟩, hflags, hunused, byteOf_of_field rfl, rfl, rfl⟩
  case scan =>
    refine ⟨?length, byteOf_of_firstField rfl,
      fun k hk => ⟨byteOf_of_field rfl k hk, ofNat_of_field rfl k hk⟩, rfl, rfl,
      fun j v hv k hk => ?value⟩
    case length =>
      rw [← values_length values]
      exact List.length_append
    case value =>
      rw [Nat.add_assoc, ← List.getElem?_drop]
      exact values_getElem? hv hk

end Sys2Proof.Machine
end

/-! ## The front command (O1) -/

section
namespace Sys2Proof.Machine

/-- Settles O1: a queue that starts with a command rules out the idle branch of `step`. -/
theorem stepTakesFrontCommand : Obligations.StepTakesFrontCommand := by
  intro c rest s hqueue
  rw [step, hqueue]

end Sys2Proof.Machine
end
